-- ==== Sys2Proof/Word.lean ====
section
/-! DEFINITION. The word types of SPISEQ. Every register value and FIFO payload is one byte (R11, R45, R47);
addresses, pointers, lengths and
indices have no stated width and are plain naturals (R37, R65, R70; DESIGN CHOICE, log 20). -/

namespace Sys2Proof

/-- One byte: "all register values and FIFO payloads are single bytes" (00_scope.md section 5). -/
abbrev Byte := BitVec 8

end Sys2Proof
end

