-- ==== Sys2Proof/Config.lean ====
section
/-! DEFINITION. The parameters of R5 (values taken by decision D1 to D9, log 17), the OPEN parameters of R5 as
constants with no body (log 18), and the free values: `draw`, the choice of the next agent, the host's free answers
and the answers of an arbitrary device (log 4, 5, 7, 8). -/

namespace Sys2Proof

/-- The chip-select line as an output of the block (R24): asserted, de-asserted, or driven by hardware outside
software's control. -/
inductive Cs0 where
  | asserted
  | deasserted
  | hw
  deriving DecidableEq, Repr, Inhabited

/-- What the device is shown (R104): each level given to its chip-select line by a write of CS (`Dev.cs`), and each
byte sent to it with the level at that moment (`Dev.xfer`). -/
inductive DevEvent where
  | cs (level : Cs0)
  | xfer (level : Cs0) (mosi : Byte)
  deriving DecidableEq, Repr

/-- Who moves where there is a choice (R10, R51): the shift engine, or the sequencer and its host. -/
inductive Agent where
  | shift
  | seq
  deriving DecidableEq, Repr, Inhabited

/-- The two processor families of R6. -/
inductive Family where
  | f64C
  | f64G
  deriving DecidableEq, Repr, Inhabited

namespace Config

/-! ### Values taken (R5, decisions D1 to D5; log 17) -/

/-- `OFF_CTRL` (D1). -/
def offCtrl : BitVec 3 := 0
/-- `OFF_STAT` (D1). -/
def offStat : BitVec 3 := 1
/-- `OFF_FIFO` (D1). -/
def offFifo : BitVec 3 := 2
/-- `OFF_RSVA` (D1). -/
def offRsva : BitVec 3 := 3
/-- `OFF_RDENG` (D1). -/
def offRdeng : BitVec 3 := 4
/-- `OFF_CS` (D1). -/
def offCs : BitVec 3 := 5
/-- `OFF_RSVB` (D1). -/
def offRsvb : BitVec 3 := 6
/-- Offset 7, "also reserved, being inside `WIN_LEN`" (R5). -/
def offRsv7 : BitVec 3 := 7
/-- `WIN_LEN` (D1). -/
def winLen : Nat := 8

/-- `P_SPE` (D2). -/
def pSpe : Nat := 6
/-- `P_MSTR` (D2). -/
def pMstr : Nat := 4
/-- `P_RFE` (D3). -/
def pRfe : Nat := 0
/-- `P_RFF` (D3). -/
def pRff : Nat := 1
/-- `P_WFE` (D3). -/
def pWfe : Nat := 2
/-- `P_WFF` (D3). -/
def pWff : Nat := 3
/-- `P_WCOL` (D3). -/
def pWcol : Nat := 6
/-- `P_REN` (D4). -/
def pRen : Nat := 0
/-- `P_SEL0` (D5). -/
def pSel0 : Nat := 0
/-- `P_LVL0` (D5). -/
def pLvl0 : Nat := 4

/-- `M_X = 1 << P_X` (00_scope.md section 5). -/
def mask (p : Nat) : Byte := 1#8 <<< p

/-- `CS_ASSERT` (D5). -/
def csAssert : Byte := 0x01
/-- `CS_DEASSERT` (D5). -/
def csDeassert : Byte := 0x11
/-- `CS_CLEAR`: the one register literal of the source (R5, R133). -/
def csClear : Byte := 0x00

/-- `GUARD_INVERTED = false` (R132, D15; log 26). -/
def guardInverted : Bool := false

/-- The `SC8` codes (R63, D12). -/
def opInit : Byte := 0x01
/-- The `SC8` code of `XFER` (R63, D12). -/
def opXfer : Byte := 0x02
/-- The `SC8` code of `SHUTDOWN` (R63, D12). -/
def opShutdown : Byte := 0x03

/-! ### OPEN parameters (R5; log 18): constants with no body, so nothing can be proved of their values -/

/-- `RXDEPTH - 1`. -/
opaque rxDepthLessOne : Nat
/-- `RXDEPTH`, OPEN, at least 1 (R21, D7). -/
def rxDepth : Nat := rxDepthLessOne + 1
/-- `TXDEPTH - 1`. -/
opaque txDepthLessOne : Nat
/-- `TXDEPTH`, OPEN, at least 1 (R22, D7). -/
def txDepth : Nat := txDepthLessOne + 1

/-- The smaller of the two base addresses. -/
opaque baseLow : Nat
/-- One less than the distance between the two base addresses. -/
opaque baseGapLessOne : Nat
/-- Whether the "64G" family has the smaller base address. -/
opaque base64GIsLow : Bool
/-- `BASE_64C`, `BASE_64G`: OPEN and distinct (R5, R42, D9). -/
def base : Family → Nat
  | .f64C => if base64GIsLow then baseLow + (baseGapLessOne + 1) else baseLow
  | .f64G => if base64GIsLow then baseLow else baseLow + (baseGapLessOne + 1)

/-- `classify` on the strings whose class the source does not give. -/
opaque classifyOther : String → Option Family
/-- `classify` (R6): an absent selector and the strings "" and "unknown9000" have no family, "3a4000" is 64G, the class of
every other string is OPEN (D9). -/
def classify : Option String → Option Family
  | none => none
  | some sel =>
    if sel = "3a4000" then some .f64G
    else if sel = "unknown9000" then none
    else if sel = "" then none
    else classifyOther sel

/-- The human-readable label given to `Map`; its text is not in the source (R163, N13). -/
opaque mapLabel : String
/-- The opaque context given to `RegisterShutdownHook` (R164, N13). -/
opaque hookContext : Nat
/-- `ERRCODE - 1` for error kind number `k` (0 configuration, 1 mapping, 2 registration). -/
opaque errCodeLessOne : Nat → Nat
/-- `ERRCODE`: "every error is a non-zero status" (R64, D17). -/
def errCode (k : Nat) : Nat := errCodeLessOne k + 1
/-- The pointer of the window through which `withFetchWord` presents a register access when no window is mapped
(log 6). -/
opaque testWindow : Nat

/-! ### Free values -/

/-- `draw` (00_scope.md section 5): the byte of the `n`-th draw, under no law (log 4). -/
opaque freeByte : Nat → Byte
/-- Who moves at a choice that the state's schedule does not settle (R51; log 5). -/
opaque freeAgent : Nat → Agent
/-- What `Map` answers where the state does not script its answer: a pointer, or failure (R163; log 7). -/
opaque freeMapAnswer : Nat → Option Nat
/-- What a registration call answers where the state does not script its answer (R164, R165; log 7). -/
opaque freeAccept : Nat → Bool
/-- The answer of an arbitrary device to a byte, from everything it was shown before (R104; log 8). -/
opaque devAnswer : List DevEvent → Cs0 → Byte → Byte

end Config

end Sys2Proof
end

