-- ==== Sys2Proof/Syntax.lean ====
section
/-! DEFINITION. The operations of SPISEQ as syntax: the register names of the window (R11), the directions of an
access, the values carried beside a command (R63), the coded forms `RA16` and `SC8` (R60, R63), and the one inductive
`Instr`, a constructor for every row of spec/opcode_table.json. -/

namespace Sys2Proof

/-- The names of the eight offsets of the register window (R11, R61); semantics attach to the name (R62). -/
inductive Reg where
  | ctrl
  | stat
  | fifo
  | rsva
  | rdeng
  | cs
  | rsvb
  | rsv7
  deriving DecidableEq, Repr

/-- The direction of a register access (R60 field `WR`). -/
inductive Dir where
  | read
  | write
  deriving DecidableEq, Repr

/-- The operands of a command, "carried beside the code as values and not serialised into bits" (R63). A command uses
the ones its row names; `ctx` is the flash context of `XFER` and the opaque context of `SHUTDOWN`, both ignored (R31). -/
structure CommandArgs where
  /-- `selector` of `INIT`: a string, or absent. -/
  selector : Option String := none
  /-- `W` of `XFER`. -/
  w : Nat := 0
  /-- `R` of `XFER`. -/
  r : Nat := 0
  /-- `wb_base` of `XFER`. -/
  wbBase : Nat := 0
  /-- `rb_base` of `XFER`. -/
  rbBase : Nat := 0
  /-- The opaque context. -/
  ctx : Nat := 0
  deriving DecidableEq, Repr

/-- The two coded forms (R60, R63): a 16-bit access word, or an 8-bit command code with its operands. -/
inductive Code where
  | ra16 (word : BitVec 16)
  | sc8 (op : Byte) (args : CommandArgs)
  deriving DecidableEq, Repr

/-- The operations, one constructor per row of spec/opcode_table.json: the sixteen of the RA set (R61) and the three
commands of the SC set (R63). -/
inductive Instr where
  | rdCtrl
  | wrCtrl (v : Byte)
  | rdStat
  | wrStat (v : Byte)
  | rdFifo
  | wrFifo (v : Byte)
  | rdRsva
  | wrRsva (v : Byte)
  | rdRdeng
  | wrRdeng (v : Byte)
  | rdCs
  | wrCs (v : Byte)
  | rdRsvb
  | wrRsvb (v : Byte)
  | rdRsv7
  | wrRsv7 (v : Byte)
  | init (selector : Option String)
  | xfer (w r : Nat) (wbBase rbBase : Nat) (ctx : Nat)
  | shutdown (ctx : Nat)
  deriving DecidableEq, Repr

end Sys2Proof
end

