-- ==== Sys2Proof/WellFormed.lean ====
section
/-! DEFINITION. What the types of `Instr` leave open: the two buffers of `XFER` must not overlap (R34, D26). Every
other field is of exactly the values the spec allows: a byte (R65), a natural (R65), a string or absent (R63). -/

namespace Sys2Proof

/-- The outbound buffer of `w` bytes from `wb` and the inbound buffer of `r` bytes from `rb` share no address (R34). -/
def buffersDisjoint (w r : Nat) (wb rb : Nat) : Bool :=
  w = 0 || r = 0 || wb + w ≤ rb || rb + r ≤ wb

/-- Why an instruction is ill-formed. -/
inductive WfError where
  /-- The buffers of an `XFER` overlap (R34, D26). -/
  | buffersOverlap
  deriving DecidableEq, Repr

/-- What is ill-formed about an instruction, if anything is. -/
def Instr.wfError : Instr → Option WfError
  | .xfer w r wb rb _ => if buffersDisjoint w r wb rb then none else some .buffersOverlap
  | .rdCtrl | .wrCtrl _ | .rdStat | .wrStat _ | .rdFifo | .wrFifo _ | .rdRsva | .wrRsva _ | .rdRdeng | .wrRdeng _
  | .rdCs | .wrCs _ | .rdRsvb | .wrRsvb _ | .rdRsv7 | .wrRsv7 _ | .init _ | .shutdown _ => none

/-- A well-formed instruction. -/
def Instr.wf (i : Instr) : Bool := i.wfError = none

end Sys2Proof
end

