-- ==== Sys2Proof/Decode.lean ====
section
/-! DEFINITION. The decoder of the two coded forms (R60, R61, R63), total, rejecting reserved encodings by name
(R66, R67), and the encoder written from the same tables. -/

namespace Sys2Proof

/-- Why a code names no instruction. -/
inductive DecodeError where
  /-- An `RA16` word whose field `Z` is not 0000 (R66 a). -/
  | reservedZ
  /-- An `SC8` code other than 0x01, 0x02, 0x03 (R67). -/
  | reservedOp
  deriving DecidableEq, Repr

/-- The offset of a register in the window (R5, R11). -/
def Reg.off : Reg → BitVec 3
  | .ctrl => Config.offCtrl
  | .stat => Config.offStat
  | .fifo => Config.offFifo
  | .rsva => Config.offRsva
  | .rdeng => Config.offRdeng
  | .cs => Config.offCs
  | .rsvb => Config.offRsvb
  | .rsv7 => Config.offRsv7

/-- The register at an offset of the window (R5, R11). -/
def Reg.atOff (off : BitVec 3) : Reg :=
  if off = Config.offCtrl then .ctrl
  else if off = Config.offStat then .stat
  else if off = Config.offFifo then .fifo
  else if off = Config.offRsva then .rsva
  else if off = Config.offRdeng then .rdeng
  else if off = Config.offCs then .cs
  else if off = Config.offRsvb then .rsvb
  else .rsv7

/-- The row of R61 for a direction and a register. -/
def accessInstr (d : Dir) (r : Reg) (v : Byte) : Instr :=
  match d, r with
  | .read, .ctrl => .rdCtrl
  | .write, .ctrl => .wrCtrl v
  | .read, .stat => .rdStat
  | .write, .stat => .wrStat v
  | .read, .fifo => .rdFifo
  | .write, .fifo => .wrFifo v
  | .read, .rsva => .rdRsva
  | .write, .rsva => .wrRsva v
  | .read, .rdeng => .rdRdeng
  | .write, .rdeng => .wrRdeng v
  | .read, .cs => .rdCs
  | .write, .cs => .wrCs v
  | .read, .rsvb => .rdRsvb
  | .write, .rsvb => .wrRsvb v
  | .read, .rsv7 => .rdRsv7
  | .write, .rsv7 => .wrRsv7 v

/-- Decoding an `RA16` word: field `WR` is bit 15, `Z` bits 14:11, `OFF` bits 10:8, `DATA` bits 7:0, ignored on a read
(R60, R61, R66 a). -/
def decodeAccess (word : BitVec 16) : Except DecodeError Instr :=
  if word.extractLsb' 11 4 = 0 then
    .ok (accessInstr (if word.getLsbD 15 then .write else .read) (Reg.atOff (word.extractLsb' 8 3))
      (word.extractLsb' 0 8))
  else .error .reservedZ

/-- Decoding an `SC8` code with the operands beside it (R63, R67). -/
def decodeCommand (op : Byte) (args : CommandArgs) : Except DecodeError Instr :=
  if op = Config.opInit then .ok (.init args.selector)
  else if op = Config.opXfer then .ok (.xfer args.w args.r args.wbBase args.rbBase args.ctx)
  else if op = Config.opShutdown then .ok (.shutdown args.ctx)
  else .error .reservedOp

/-- The decoder, total on every code. -/
def decode : Code → Except DecodeError Instr
  | .ra16 word => decodeAccess word
  | .sc8 op args => decodeCommand op args

/-- An `RA16` word from its fields (R60): `WR`, `Z = 0000`, `OFF`, `DATA`. -/
def accessWord (d : Dir) (r : Reg) (v : Byte) : BitVec 16 :=
  (match d with | .read => 0#1 | .write => 1#1) ++ 0#4 ++ r.off ++ v

/-- The encoder (R61, R63). A read is emitted with `DATA = 00000000` (R60). -/
def encode : Instr → Code
  | .rdCtrl => .ra16 (accessWord .read .ctrl 0)
  | .wrCtrl v => .ra16 (accessWord .write .ctrl v)
  | .rdStat => .ra16 (accessWord .read .stat 0)
  | .wrStat v => .ra16 (accessWord .write .stat v)
  | .rdFifo => .ra16 (accessWord .read .fifo 0)
  | .wrFifo v => .ra16 (accessWord .write .fifo v)
  | .rdRsva => .ra16 (accessWord .read .rsva 0)
  | .wrRsva v => .ra16 (accessWord .write .rsva v)
  | .rdRdeng => .ra16 (accessWord .read .rdeng 0)
  | .wrRdeng v => .ra16 (accessWord .write .rdeng v)
  | .rdCs => .ra16 (accessWord .read .cs 0)
  | .wrCs v => .ra16 (accessWord .write .cs v)
  | .rdRsvb => .ra16 (accessWord .read .rsvb 0)
  | .wrRsvb v => .ra16 (accessWord .write .rsvb v)
  | .rdRsv7 => .ra16 (accessWord .read .rsv7 0)
  | .wrRsv7 v => .ra16 (accessWord .write .rsv7 v)
  | .init sel => .sc8 Config.opInit { selector := sel }
  | .xfer w r wb rb ctx => .sc8 Config.opXfer { w := w, r := r, wbBase := wb, rbBase := rb, ctx := ctx }
  | .shutdown ctx => .sc8 Config.opShutdown { ctx := ctx }

/-- The code whose bits are `w`, numbered as spec/opcode_table.json numbers them: an `SC8` row has 8 bits, an `RA16` row
16 (R60, R63, R68). A command's operands have no bits and are absent and zeros. -/
def tableCode (nbits w : Nat) : Option Code :=
  if nbits = 8 && w < 2 ^ 8 then some (.sc8 (BitVec.ofNat 8 w) {})
  else if nbits = 16 && w < 2 ^ 16 then some (.ra16 (BitVec.ofNat 16 w))
  else none

/-- The instruction the decoder reads from the code of a table row. -/
def decodeTableWord (nbits w : Nat) : Option Instr :=
  match tableCode nbits w with
  | none => none
  | some c =>
    match decode c with
    | .ok i => some i
    | .error _ => none

end Sys2Proof
end

