-- ==== Sys2Proof/Machine/State.lean ====
section
/-! DEFINITION. The state of SPISEQ as plain data (10_state.md), its state after reset (R38, R39, R195), and the
reasons a step can stop. -/

namespace Sys2Proof.Machine

/-- The micro-state of the sequencer (R32). -/
inductive MicroState where
  | idle
  | iResolve
  | iProbe
  | iHook
  | iCsIdle
  | iCtrlRd
  | iCtrlWr
  | iReRd
  | iReWr
  | iDrainPoll
  | iDrainPop
  | iRegister
  | xCsOn
  | xWPush
  | xWPoll
  | xWPop
  | xRPush
  | xRPoll
  | xRPop
  | xCsOff
  | sGuard
  | sCs0
  | sReRd
  | sReWr
  deriving DecidableEq, Repr

/-- The lifecycle state `LC` (R28). -/
inductive Lifecycle where
  | uninit
  | failed
  | ready
  | closed
  deriving DecidableEq, Repr

/-- The two registrations that can fail (R173). -/
inductive Registrant where
  | hook
  | master
  deriving DecidableEq, Repr

/-- The three error kinds of `INIT` with the information recorded (R170). -/
inductive InitError where
  | configuration (selector : Option String)
  | mapping (base : Nat)
  | registration (which : Registrant)
  deriving DecidableEq, Repr

/-- A result status (R64). -/
inductive Status where
  | ok
  | error (e : InitError)
  deriving DecidableEq, Repr

/-- The three commands (R63). -/
inductive Command where
  | init
  | xfer
  | shutdown
  deriving DecidableEq, Repr

/-- Levels of a diagnostic (R166). -/
inductive DiagLevel where
  | error
  | warning
  deriving DecidableEq, Repr

/-- Classes of a diagnostic (R166, R188). -/
inductive DiagClass where
  | configuration
  | mapping
  | registration
  | readEngineOff
  deriving DecidableEq, Repr

/-- A maximum transfer size of the operation table (R161). -/
inductive SizeLimit where
  | unlimited
  deriving DecidableEq, Repr

/-- Who implements an entry point of the operation table (R161). -/
inductive EntryPoint where
  | command (c : Command)
  | framework
  deriving DecidableEq, Repr

/-- The operation table handed to `RegisterBusMaster` (R161). -/
structure OpTable where
  maxRead : SizeLimit
  maxWrite : SizeLimit
  single : EntryPoint
  multi : EntryPoint
  bulkRead : EntryPoint
  pagedWrite : EntryPoint
  deriving DecidableEq, Repr

/-- A call to the host with its answer (R163, R164, R165). -/
inductive HostCall where
  | map (label : String) (base : Nat) (len : Nat) (answer : Option Nat)
  | registerShutdownHook (callback : Command) (context : Nat) (accepted : Bool)
  | registerBusMaster (table : OpTable) (accepted : Bool)
  deriving DecidableEq, Repr

/-- An event of the observable trace (R36). -/
inductive Event where
  | acc (d : Dir) (r : Reg) (v : Byte)
  | xfer (level : Cs0) (mosi miso : Byte)
  | host (call : HostCall)
  | diag (level : DiagLevel) (cls : DiagClass)
  | done (cmd : Command) (status : Option Status)
  deriving DecidableEq, Repr

/-- What stands behind the Register Interface (R93): the core, or the echo double of the source's properties. -/
inductive RegIface where
  | core
  | echoDouble
  deriving DecidableEq, Repr

/-- The flash device on chip-select 0 (R104): an arbitrary device, held as everything it was shown (its answers are
the free value `Config.devAnswer`); the echo device; the scripted device, held as the answers it has still to give. -/
inductive Device where
  | any (seen : List DevEvent)
  | echo
  | scripted (answers : List Byte)
  deriving DecidableEq, Repr

/-- The host's answer to `Map` (R163): an input, scripted or free (log 7). -/
inductive MapReply where
  | pointer (p : Nat)
  | failure
  | free
  deriving DecidableEq, Repr

/-- The host's answer to a registration call (R164, R165): an input, scripted or free (log 7). -/
inductive RegReply where
  | ok
  | fail
  | free
  deriving DecidableEq, Repr

/-- The caller's memory (R34, R41): cells at strictly rising addresses, none equal to what an unlisted address
reads as. -/
abbrev Memory := List Host.Cell

/-- Everything the spec gives the machine (10_state.md), and the model's own fields for its inputs and free values
(`iface`, `requests`, the replies, `sched`, `draws`). -/
structure State where
  /-- The micro-state (R32). -/
  pc : MicroState
  /-- `CTRL` (R12). -/
  ctrl : Byte
  /-- `RDENG` (R16). -/
  rdeng : Byte
  /-- `CS` (R17). -/
  cs : Byte
  /-- `RXF`, oldest byte first (R21). -/
  rxf : List Byte
  /-- `TXF`, oldest byte first (R22). -/
  txf : List Byte
  /-- The device (R35 c, R104). -/
  dev : Device
  /-- What stands behind the Register Interface (R93). -/
  iface : RegIface
  /-- `HANDLE` (R27). -/
  handle : Option Nat
  /-- `LC` (R28). -/
  lc : Lifecycle
  /-- `HOOKED` (R35 f). -/
  hooked : Bool
  /-- `MASTER` (R35 f). -/
  master : Bool
  /-- Working register `T` (R30). -/
  regT : Byte
  /-- Working register `S` (R30). -/
  regS : Byte
  /-- Working register `I` (R30). -/
  regI : Nat
  /-- Working register `W` (R30). -/
  regW : Nat
  /-- Working register `R` (R30). -/
  regR : Nat
  /-- Working register `ST` (R30). -/
  regST : Status
  /-- The operands held for the running command (R31). -/
  held : CommandArgs
  /-- The caller's memory (R34). -/
  mem : Memory
  /-- What the host has still to present, in order (R63, R167; log 6). -/
  requests : List Code
  /-- The answer to `Map` (R163). -/
  mapReply : MapReply
  /-- The answer to `RegisterShutdownHook` (R164). -/
  hookReply : RegReply
  /-- The answer to `RegisterBusMaster` (R165). -/
  masterReply : RegReply
  /-- Who moves at the next choices between the shift engine and the others (R51; log 5). -/
  sched : List Agent
  /-- How many free values were drawn (log 4). -/
  draws : Nat
  /-- The observable trace, oldest event first (R36). -/
  trace : List Event
  deriving DecidableEq, Repr

/-- Why the machine stands still for good. The block "has no fault mechanism outside INIT" (93_implementation_defined.md
Part 1), so nothing here is an error of the block: the one constructor names the outcome `stuck` of R179 (c), which is
none of an error, a hang and a refusal (log 22, 23). -/
inductive Fault where
  /-- No agent has a step while a command is unfinished (R179 c, U29): raised by `agentStep`, in a poll micro-state of
  `XFER` with `RXF` empty and the shift step not enabled. Safe. -/
  | stuck
  deriving DecidableEq, Repr

/-- Why a step gives a situation no meaning. Every constructor but `notModelled` renders a "refuse" of
93_implementation_defined.md Part 1; all are safe: the model stops where the hardware would do something unstated. -/
inductive Refusal where
  /-- An arm of `exec` whose instruction has no meaning yet. Raised by no arm now. Safe. -/
  | notModelled (mnemonic : String)
  /-- An RA operation with `HANDLE` unset (R91, U12): raised by every register access. Safe. -/
  | handleUnset
  /-- `WR STAT` (R83, U3). Safe. -/
  | statusWrite
  /-- An access to a reserved offset (R90, U4). Safe. -/
  | reservedOffset
  /-- `WR CTRL` that clears `SPE` or `MSTR` when it was set (R81 b, U7). Safe. -/
  | clearsEnable
  /-- `RD FIFO` or `WR FIFO` unless `SPE`, `MSTR` and not `REN` (R84, R85, U10). Safe. -/
  | notEnabled
  /-- `WR FIFO` with `TXF` full (R84 b, U2). Safe. -/
  | txfFull
  /-- `RD FIFO` with `RXF` empty (R85 a, U1). Safe. -/
  | rxfEmpty
  /-- `WR RDENG` that sets `REN` while `TXF` is non-empty or `cs0` is asserted (R87 b, U8). Safe. -/
  | engineWhileBusy
  /-- `WR CS` with a value outside the three patterns (R89, U11). Safe. -/
  | csPattern
  /-- A byte to send and `RXF` full, whoever's turn it is (R101, U23): raised by every step there. Safe. -/
  | rxfFull
  /-- A command presented while `pc` is not `IDLE` (R181, U24). Safe. -/
  | busy
  /-- `INIT` with `LC` not `UNINIT` (R181, U25). Safe. -/
  | initNotFirst
  /-- `XFER` with `LC` not `READY` (R181, U25). Safe. -/
  | notReady
  /-- A second `SHUTDOWN` (R181, U25). Safe. -/
  | secondShutdown
  /-- `XFER` with overlapping buffers (R34, U26). Safe. -/
  | buffersOverlap
  /-- A presented `RA16` word with `Z` not 0000 (R66 a, U6): raised by the host's step. Safe. -/
  | reservedEncoding
  /-- A presented `SC8` code that names no command (R67, R181, U6): raised by the host's step. Safe. -/
  | reservedCommand
  /-- A test access to the window while `LC` is `READY` (R92, R214), or one that writes `CTRL`, `RDENG`, `CS` or `FIFO` or
  reads `FIFO` while `LC` is `FAILED` (R215 2, U27): raised by the host's step. Safe. -/
  | secondWriter
  deriving DecidableEq, Repr

/-- The machine right after reset. R39 gives `pc`, `handle`, `lc`, `hooked`, `master` and `trace`; R38 leaves the core
unspecified and R30 the working registers unwritten, and the values here are the model's (DESIGN CHOICE, log 1, 2); the
inputs are free and nothing is presented (log 5, 6, 7, 8); the caller's memory lists nothing (log 3). -/
def State.reset : State where
  pc := .idle
  ctrl := 0
  rdeng := 0
  cs := 0
  rxf := []
  txf := []
  dev := .any []
  iface := .core
  handle := none
  lc := .uninit
  hooked := false
  master := false
  regT := 0
  regS := 0
  regI := 0
  regW := 0
  regR := 0
  regST := .ok
  held := {}
  mem := []
  requests := []
  mapReply := .free
  hookReply := .free
  masterReply := .free
  sched := []
  draws := 0
  trace := []

end Sys2Proof.Machine
end

