-- ==== Sys2Proof/Machine/Flags.lean ====
section
/-! DEFINITION. Bits of bytes, the status byte (R13, R18, R19, R82), the enabling condition of software transactions
(R84, R100) and the chip-select line (R24). -/

namespace Sys2Proof.Machine

/-- `v[n]` (00_scope.md section 5). -/
def bit (v : Byte) (n : Nat) : Bool := v.getLsbD n

/-- A flag at a bit position of the status byte. -/
def flagAt (p : Nat) (b : Bool) : Byte := if b then Config.mask p else 0

/-- The positions of the four occupancy flags of `STAT` (R13). -/
def occupancyMask : Byte :=
  Config.mask Config.pRfe ||| Config.mask Config.pRff ||| Config.mask Config.pWfe ||| Config.mask Config.pWff

/-- The byte a read of `STAT` returns (R82): four occupancy flags from the lengths and depths of the FIFOs; `WCOL` and
the reserved bits 7, 5, 4 are those of the drawn byte `free`. -/
def statByte (rxDepth txDepth rxLen txLen : Nat) (free : Byte) : Byte :=
  (free &&& ~~~occupancyMask) ||| flagAt Config.pRfe (rxLen = 0) ||| flagAt Config.pRff (rxLen = rxDepth) |||
    flagAt Config.pWfe (txLen = 0) ||| flagAt Config.pWff (txLen = txDepth)

/-- The byte a read of `STAT` returns behind the echo double (R93): `RFEMPTY` from `RXF`; the double says nothing of the
other bits, so they are those of the drawn byte (log 9). -/
def doubleStatByte (rxLen : Nat) (free : Byte) : Byte :=
  (free &&& ~~~Config.mask Config.pRfe) ||| flagAt Config.pRfe (rxLen = 0)

/-- "Correctly enabled" (R84, R85, R100): `SPE = 1`, `MSTR = 1`, `REN = 0`. -/
def softwareOwned (ctrl rdeng : Byte) : Bool :=
  bit ctrl Config.pSpe && bit ctrl Config.pMstr && !bit rdeng Config.pRen

/-- A write of `new` over `old` clears `SPE` or `MSTR` when it was set (R81 b). -/
def clearsEnable (old new : Byte) : Bool :=
  (bit old Config.pSpe && !bit new Config.pSpe) || (bit old Config.pMstr && !bit new Config.pMstr)

/-- A write of `new` over `old` sets `REN` (R87 b): it was 0 and becomes 1 (DEDUCED, log 14). -/
def setsReadEngine (old new : Byte) : Bool := !bit old Config.pRen && bit new Config.pRen

/-- The chip-select line as a function of `CS` (R24). -/
def lineOf (cs : Byte) : Cs0 :=
  if bit cs Config.pSel0 then (if bit cs Config.pLvl0 then .deasserted else .asserted) else .hw

/-- One of the three values `CS` may be written with (R89). -/
def isCsPattern (v : Byte) : Bool := v = Config.csAssert || v = Config.csDeassert || v = Config.csClear

/-- The numeric status (R64): 0 for `Ok`, non-zero and OPEN for each error kind. -/
def statusCode : Status → Nat
  | .ok => 0
  | .error (.configuration _) => Config.errCode 0
  | .error (.mapping _) => Config.errCode 1
  | .error (.registration _) => Config.errCode 2

end Sys2Proof.Machine
end

