-- ==== Sys2Proof/Machine/Ops.lean ====
section
/-! DEFINITION. The named operations over the state: the caller's memory (R41), events (R36), draws (00_scope.md
section 5), the register window (R40, R91), the device (R104, R105), the choice of the next agent (R51), the host's
answers (R163 to R165), the end of a command and the raising of an error (R174). -/

namespace Sys2Proof.Machine

/-- What a step of this machine answers. -/
abbrev Result := Host.Outcome State Fault Refusal

/-- Go on from a next state; a fault or a refusal stays. -/
def onNext (o : Result) (f : State → State) : Result :=
  match o with
  | .next s => .next (f s)
  | .fault r => .fault r
  | .refused r => .refused r

/-! ### The caller's memory (R34, R41) -/

/-- What a byte of the caller's memory that nothing has written reads as (DESIGN CHOICE, log 3). -/
def memBlank : Byte := 0

/-- The canonical form of a memory: addresses strictly rising, no cell equal to what an unlisted address reads as. -/
abbrev Memory.wf (m : Memory) : Prop :=
  m.Pairwise (fun a b => a.1 < b.1) ∧ ∀ c ∈ m, c.2 ≠ memBlank

/-- `MemRead(a, 1)` in the caller's memory. -/
def memRead : Memory → Nat → Byte
  | [], _ => memBlank
  | (a, v) :: m, x => if a = x then v else memRead m x

/-- A memory without its cells at one address. -/
def memErase (m : Memory) (x : Nat) : Memory := m.filter (fun c => c.1 ≠ x)

/-- A memory with one more cell, before the first cell of a greater address. -/
def memInsert : Memory → Nat → Byte → Memory
  | [], x, v => [(x, v)]
  | (a, b) :: m, x, v => if a < x then (a, b) :: memInsert m x v else (x, v) :: (a, b) :: m

/-- `MemWrite(a, 1, v)` in the caller's memory; writing what an unlisted address reads as removes the cell. -/
def memWrite (m : Memory) (x : Nat) (v : Byte) : Memory :=
  if v = memBlank then memErase m x else memInsert (memErase m x) x v

/-! ### Events, draws, micro-states -/

/-- `emit E` (R36). -/
def State.emit (s : State) (e : Event) : State := { s with trace := s.trace ++ [e] }

/-- One more free value is drawn. -/
def State.drawn (s : State) : State := { s with draws := s.draws + 1 }

/-- `pc <- p` (R32). -/
def State.goto (s : State) (p : MicroState) : State := { s with pc := p }

/-- `draw` (00_scope.md section 5): a byte under no law, fresh each time (log 4). -/
def draw (s : State) : Byte × State := (Config.freeByte s.draws, s.drawn)

/-! ### The register window (R40, R91) -/

/-- The address of a register: `HANDLE + zext(OFF)` (R65, R91); none with `HANDLE` unset. -/
def regAddr (s : State) (r : Reg) : Option Nat := s.handle.map (fun p => p + r.off.toNat)

/-- An access to the window needs `HANDLE` set (R91). -/
def overWindow (s : State) (r : Reg) (o : Result) : Result :=
  match regAddr s r with
  | none => .refused .handleUnset
  | some _ => o

/-- The end of a read that leaves its byte in `T` (R71, R91): the byte and one `Acc` event. -/
def readIntoT (s : State) (r : Reg) (v : Byte) : State :=
  ({ s with regT := v } : State).emit (.acc .read r v)

/-- The line `cs0` (R24). -/
def State.cs0 (s : State) : Cs0 := lineOf s.cs

/-! ### The device (R104, R105) -/

/-- The device is shown something it can see; an arbitrary device remembers it. That a write of `CS` or an exchange with the
line not asserted leaves a script as it is, using up no answer, is the model's choice: R104 and R105 do not say (DESIGN
CHOICE, log 8). -/
def deviceSees (s : State) (e : DevEvent) : State :=
  match s.dev with
  | .any seen => { s with dev := .any (seen ++ [e]) }
  | .echo => s
  | .scripted _ => s

/-- `Dev.xfer(level, mosi)` (R104): the byte received and the state after. An exchange with the line not asserted
receives a draw (R105), and so does one past the end of a script (log 8). -/
def exchange (s : State) (level : Cs0) (mosi : Byte) : Byte × State :=
  match level with
  | .asserted =>
    match s.dev with
    | .any seen => (Config.devAnswer seen .asserted mosi, { s with dev := .any (seen ++ [.xfer .asserted mosi]) })
    | .echo => (mosi, s)
    | .scripted [] => draw s
    | .scripted (a :: rest) => (a, { s with dev := .scripted rest })
  | .deasserted => draw (deviceSees s (.xfer .deasserted mosi))
  | .hw => draw (deviceSees s (.xfer .hw mosi))

/-! ### Inputs: whose turn it is, and the host's answers -/

/-- Who moves at a choice (R51): the next entry of the schedule, and past its end a free value (log 5). -/
def nextAgent (s : State) : Agent × State :=
  match s.sched with
  | a :: rest => (a, { s with sched := rest })
  | [] => (Config.freeAgent s.draws, s.drawn)

/-- The host's answer to `Map` (R163): a pointer, or failure. -/
def askMap (s : State) : Option Nat × State :=
  match s.mapReply with
  | .pointer p => (some p, s)
  | .failure => (none, s)
  | .free => (Config.freeMapAnswer s.draws, s.drawn)

/-- The host's answer to a registration call (R164, R165), scripted as `reply`. -/
def askRegister (s : State) (reply : RegReply) : Bool × State :=
  match reply with
  | .ok => (true, s)
  | .fail => (false, s)
  | .free => (Config.freeAccept s.draws, s.drawn)

/-! ### The end of a command, and errors (R33, R174) -/

/-- The end of every command: `emit Done(cmd, status)`, `pc <- IDLE` (R33 d), and the operands held for it are gone
(R31; log 21). -/
def endCommand (s : State) (cmd : Command) (status : Option Status) : State :=
  ({ s with pc := .idle, held := {} } : State).emit (.done cmd status)

/-- The class of an error's diagnostic (R170). -/
def diagClassOf : InitError → DiagClass
  | .configuration _ => .configuration
  | .mapping _ => .mapping
  | .registration _ => .registration

/-- `raise E(info)` (R174), the one way an error is taken: the diagnostic, `ST`, `LC = FAILED`, `Done`, `IDLE`; nothing
else changes. No operation returns from it (R177). -/
def raiseError (s : State) (e : InitError) : State :=
  endCommand { s.emit (.diag .error (diagClassOf e)) with regST := .error e, lc := .failed } .init
    (some (.error e))

end Sys2Proof.Machine
end

