-- ==== Sys2Proof/Machine/Operands.lean ====
section
/-! DEFINITION. The operand forms of the micro-programs (R65, R70, R71): a constant, `T | m`, `T & ~m`, a byte of the
outbound buffer or a draw; and the pseudo-operations of R73 that name one access. -/

namespace Sys2Proof.Machine

/-- `v | m` (R70). -/
def setBits (v m : Byte) : Byte := v ||| m

/-- `v & ~m` (R70). -/
def clearBits (v m : Byte) : Byte := v &&& ~~~m

/-- `M_MSTR | M_SPE` (R121). -/
def enableMask : Byte := Config.mask Config.pMstr ||| Config.mask Config.pSpe

/-- `M_REN` (R123, R135). -/
def readEngineMask : Byte := Config.mask Config.pRen

/-- `CS_ON` (R73). -/
def csOn : Instr := .wrCs Config.csAssert

/-- `CS_OFF` (R73). -/
def csOff : Instr := .wrCs Config.csDeassert

/-- `CS_CLR` (R73). -/
def csClr : Instr := .wrCs Config.csClear

/-- The outbound byte at the current index (R142, R145, R146, R222): `wb[I]` at `wb_base + I` while `I < W`, a draw past
the end of the buffer. -/
def outboundByte (s : State) : Byte × State :=
  if s.regI < s.regW then (memRead s.mem (s.held.wbBase + s.regI), s) else draw s

/-- The store `rb[I] <- T` (R148, R222): one byte at `rb_base + I`. -/
def storeInbound (s : State) : State := { s with mem := memWrite s.mem (s.held.rbBase + s.regI) s.regT }

/-- The state after an `XFER`'s index has been counted up (R144, R148, R70 c). -/
def countUp (s : State) : State := { s with regI := s.regI + 1 }

end Sys2Proof.Machine
end

