-- ==== Sys2Proof/Machine/Commands.lean ====
section
/-! DEFINITION. The meanings of the SC family (R63, R115, R131, R140): a command is accepted at `pc = IDLE` (R181), its
operands are latched and `pc` goes to its entry micro-state (R33 a). The micro-program it starts is run by the sequencer
one micro-step a step (log 10). -/

namespace Sys2Proof.Machine

/-- `INIT selector` (R115): accepted only with `pc = IDLE` and `LC = UNINIT`. -/
def execInit (selector : Option String) (s : State) : Result :=
  if s.pc ≠ .idle then .refused .busy
  else if s.lc ≠ .uninit then .refused .initNotFirst
  else .next { s with pc := .iResolve, held := { selector := selector } }

/-- `XFER` (R140): accepted only with `pc = IDLE` and `LC = READY`, and with disjoint buffers (R34); on acceptance
`x[W] <- W`, `x[R] <- R`. The flash context is ignored (R31). -/
def execXfer (w r : Nat) (wbBase rbBase : Nat) (ctx : Nat) (s : State) : Result :=
  if s.pc ≠ .idle then .refused .busy
  else if s.lc ≠ .ready then .refused .notReady
  else if buffersDisjoint w r wbBase rbBase then
    .next { s with
      pc := .xCsOn
      regW := w
      regR := r
      held := { w := w, r := r, wbBase := wbBase, rbBase := rbBase, ctx := ctx } }
  else .refused .buffersOverlap

/-- `SHUTDOWN` (R131): accepted only with `pc = IDLE`, at most once. The context is ignored (R31). -/
def execShutdown (ctx : Nat) (s : State) : Result :=
  if s.pc ≠ .idle then .refused .busy
  else if s.lc = .closed then .refused .secondShutdown
  else .next { s with pc := .sGuard, held := { ctx := ctx } }

end Sys2Proof.Machine
end

