-- ==== Sys2Proof/Machine/RegisterInterface.lean ====
section
/-! DEFINITION. The meanings of the RA family (40_register_interface.md, R80 to R93), one definition per row. Behind the
core the refusals of the rules hold; behind the echo double (R93) a write of FIFO is read back and every other register
is plain storage (log 9). -/

namespace Sys2Proof.Machine

/-- `RD CTRL` (R80): `x[T] <- CTRL`. -/
def execRdCtrl (s : State) : Result := overWindow s .ctrl (.next (readIntoT s .ctrl s.ctrl))

/-- `WR CTRL, #v` (R81): `CTRL <- v`, all eight bits; refused when it clears `SPE` or `MSTR` that was set (R81 b). -/
def execWrCtrl (v : Byte) (s : State) : Result :=
  overWindow s .ctrl
    (if s.iface = .core && clearsEnable s.ctrl v then .refused .clearsEnable
     else .next (({ s with ctrl := v } : State).emit (.acc .write .ctrl v)))

/-- The byte a read of `STAT` returns, with its draw (R82, R93). -/
def sampleStat (s : State) : Byte × State :=
  match s.iface with
  | .core =>
    (statByte Config.rxDepth Config.txDepth s.rxf.length s.txf.length (draw s).1, (draw s).2)
  | .echoDouble => (doubleStatByte s.rxf.length (draw s).1, (draw s).2)

/-- `RD STAT` (R82): `x[S]` gets the status byte; no flag changes. -/
def execRdStat (s : State) : Result :=
  overWindow s .stat
    (.next (({ (sampleStat s).2 with regS := (sampleStat s).1 } : State).emit (.acc .read .stat (sampleStat s).1)))

/-- `WR STAT, #v` (R83): reserved, refused. -/
def execWrStat (_v : Byte) (_s : State) : Result := .refused .statusWrite

/-- `RD FIFO` (R85): the oldest byte of `RXF` goes to `x[T]`; refused unless enabled, and with `RXF` empty. -/
def execRdFifo (s : State) : Result :=
  overWindow s .fifo
    (if s.iface = .core && !softwareOwned s.ctrl s.rdeng then .refused .notEnabled
     else
       match s.rxf with
       | [] => .refused .rxfEmpty
       | b :: rest => .next (readIntoT { s with rxf := rest } .fifo b))

/-- `WR FIFO, #b` (R84): `TXF <- TXF ++ [b]`; refused unless enabled, and with `TXF` full. The echo double appends the
byte to `RXF` at once (R93). -/
def execWrFifo (b : Byte) (s : State) : Result :=
  overWindow s .fifo
    (match s.iface with
     | .core =>
       if softwareOwned s.ctrl s.rdeng then
         if s.txf.length = Config.txDepth then .refused .txfFull
         else .next (({ s with txf := s.txf ++ [b] } : State).emit (.acc .write .fifo b))
       else .refused .notEnabled
     | .echoDouble => .next (({ s with rxf := s.rxf ++ [b] } : State).emit (.acc .write .fifo b)))

/-- `RD RDENG` (R86): `x[T] <- RDENG`. -/
def execRdRdeng (s : State) : Result := overWindow s .rdeng (.next (readIntoT s .rdeng s.rdeng))

/-- `WR RDENG, #v` (R87): `RDENG <- v`; refused when it sets `REN` while `TXF` is non-empty or `cs0` is asserted
(R87 b). -/
def execWrRdeng (v : Byte) (s : State) : Result :=
  overWindow s .rdeng
    (if s.iface = .core && setsReadEngine s.rdeng v && (!s.txf.isEmpty || s.cs0 = .asserted) then
       .refused .engineWhileBusy
     else .next (({ s with rdeng := v } : State).emit (.acc .write .rdeng v)))

/-- `RD CS` (R88): `x[T] <- CS`. -/
def execRdCs (s : State) : Result := overWindow s .cs (.next (readIntoT s .cs s.cs))

/-- `WR CS, #v` (R89): `CS <- v` for one of the three patterns, hence `cs0` (R24), of which the device is told
(R104); refused for any other value. -/
def execWrCs (v : Byte) (s : State) : Result :=
  overWindow s .cs
    (match s.iface with
     | .core =>
       if isCsPattern v then
         .next ((deviceSees { s with cs := v } (.cs (lineOf v))).emit (.acc .write .cs v))
       else .refused .csPattern
     | .echoDouble => .next (({ s with cs := v } : State).emit (.acc .write .cs v)))

/-- `RD RSVA` (R90): reserved, refused. -/
def execRdRsva (_s : State) : Result := .refused .reservedOffset

/-- `WR RSVA, #v` (R90): reserved, refused. -/
def execWrRsva (_v : Byte) (_s : State) : Result := .refused .reservedOffset

/-- `RD RSVB` (R90): reserved, refused. -/
def execRdRsvb (_s : State) : Result := .refused .reservedOffset

/-- `WR RSVB, #v` (R90): reserved, refused. -/
def execWrRsvb (_v : Byte) (_s : State) : Result := .refused .reservedOffset

/-- `RD RSV7` (R90): reserved, refused. -/
def execRdRsv7 (_s : State) : Result := .refused .reservedOffset

/-- `WR RSV7, #v` (R90): reserved, refused. -/
def execWrRsv7 (_v : Byte) (_s : State) : Result := .refused .reservedOffset

end Sys2Proof.Machine
end

