-- ==== Sys2Proof/Machine/Dispatch.lean ====
section
/-! DEFINITION. The dispatch of an instruction to its meaning, one arm per row of spec/opcode_table.json. -/

namespace Sys2Proof.Machine

def exec (i : Instr) (s : State) : Host.Outcome State Fault Refusal :=
  match i with
  | .rdCtrl => Sys2Proof.Machine.execRdCtrl s
  | .wrCtrl v => Sys2Proof.Machine.execWrCtrl v s
  | .rdStat => Sys2Proof.Machine.execRdStat s
  | .wrStat v => Sys2Proof.Machine.execWrStat v s
  | .rdFifo => Sys2Proof.Machine.execRdFifo s
  | .wrFifo v => Sys2Proof.Machine.execWrFifo v s
  | .rdRsva => Sys2Proof.Machine.execRdRsva s
  | .wrRsva v => Sys2Proof.Machine.execWrRsva v s
  | .rdRdeng => Sys2Proof.Machine.execRdRdeng s
  | .wrRdeng v => Sys2Proof.Machine.execWrRdeng v s
  | .rdCs => Sys2Proof.Machine.execRdCs s
  | .wrCs v => Sys2Proof.Machine.execWrCs v s
  | .rdRsvb => Sys2Proof.Machine.execRdRsvb s
  | .wrRsvb v => Sys2Proof.Machine.execWrRsvb v s
  | .rdRsv7 => Sys2Proof.Machine.execRdRsv7 s
  | .wrRsv7 v => Sys2Proof.Machine.execWrRsv7 v s
  | .init selector => Sys2Proof.Machine.execInit selector s
  | .xfer w r wbBase rbBase ctx => Sys2Proof.Machine.execXfer w r wbBase rbBase ctx s
  | .shutdown ctx => Sys2Proof.Machine.execShutdown ctx s

end Sys2Proof.Machine
end

