-- ==== Sys2Proof/Machine/Lifecycle.lean ====
section
/-! DEFINITION. The micro-states of `INIT` and `SHUTDOWN` (42_controller_lifecycle.md). A micro-state that performs an RA
operation has here what follows that operation (the operation itself is issued by `Sequencer.lean`); one that performs
none has its whole effect here. -/

namespace Sys2Proof.Machine

/-- The operation table handed to `RegisterBusMaster` (R161). -/
def opTable : OpTable where
  maxRead := .unlimited
  maxWrite := .unlimited
  single := .command .xfer
  multi := .framework
  bulkRead := .framework
  pagedWrite := .framework

/-- The successful half of `I_RESOLVE` up to the answer of `Map` (R116, R163): the call is traced; a pointer becomes
`HANDLE`, a failure raises `MappingError`. -/
def resolveMap (s : State) (fam : Family) : State :=
  let called := (askMap s).2.emit
    (.host (.map Config.mapLabel (Config.base fam) Config.winLen (askMap s).1))
  match (askMap s).1 with
  | none => raiseError called (.mapping (Config.base fam))
  | some p => ({ called with handle := some p } : State).goto .iProbe

/-- `I_RESOLVE` (R116): classify the selector, then map. -/
def microIResolve (s : State) : State :=
  match Config.classify s.held.selector with
  | none => raiseError s (.configuration s.held.selector)
  | some fam => resolveMap s fam

/-- After the probe of `I_PROBE` (R117): a warning if `REN` was clear. -/
def afterIProbe (s : State) : State :=
  (if bit s.regT Config.pRen then s else s.emit (.diag .warning .readEngineOff)).goto .iHook

/-- `I_HOOK` (R118). -/
def microIHook (s : State) : State :=
  let called := (askRegister s s.hookReply).2.emit
    (.host (.registerShutdownHook .shutdown Config.hookContext (askRegister s s.hookReply).1))
  if (askRegister s s.hookReply).1 then ({ called with hooked := true } : State).goto .iCsIdle
  else raiseError called (.registration .hook)

/-- After the write of `I_CSIDLE` (R119). -/
def afterICsIdle (s : State) : State := s.goto .iCtrlRd

/-- After the read of `I_CTRL_RD` (R120). -/
def afterICtrlRd (s : State) : State := s.goto .iCtrlWr

/-- After the write of `I_CTRL_WR` (R121). -/
def afterICtrlWr (s : State) : State := s.goto .iReRd

/-- After the read of `I_RE_RD` (R122). -/
def afterIReRd (s : State) : State := s.goto .iReWr

/-- After the write of `I_RE_WR` (R123). -/
def afterIReWr (s : State) : State := s.goto .iDrainPoll

/-- After the sample of `I_DRAIN_POLL` (R126): the loop ends when `RFEMPTY` is 1. -/
def afterIDrainPoll (s : State) : State := s.goto (if bit s.regS Config.pRfe then .iRegister else .iDrainPop)

/-- After the pop of `I_DRAIN_POP` (R127): the byte is discarded. -/
def afterIDrainPop (s : State) : State := s.goto .iDrainPoll

/-- `I_REGISTER` (R128). -/
def microIRegister (s : State) : State :=
  let called := (askRegister s s.masterReply).2.emit
    (.host (.registerBusMaster opTable (askRegister s s.masterReply).1))
  if (askRegister s s.masterReply).1 then
    endCommand { called with master := true, lc := .ready, regST := .ok } .init (some .ok)
  else raiseError called (.registration .master)

/-- The end of `SHUTDOWN` (R132, R135): `LC <- CLOSED`, `x[ST] <- Ok`, `Done(SHUTDOWN, Ok)`. -/
def endShutdown (s : State) : State :=
  endCommand { s with lc := .closed, regST := .ok } .shutdown (some .ok)

/-- The guard skips the body of `SHUTDOWN` (R132): with `HANDLE` unset, or, with the source's inverted polarity, with
`HANDLE` set (C3). -/
def guardSkips (inverted : Bool) (handle : Option Nat) : Bool :=
  if inverted then handle.isSome else handle.isNone

/-- `S_GUARD` (R132). -/
def microSGuard (s : State) : State :=
  if guardSkips Config.guardInverted s.handle then endShutdown s else s.goto .sCs0

/-- After the write of `S_CS0` (R133). -/
def afterSCs0 (s : State) : State := s.goto .sReRd

/-- After the read of `S_RE_RD` (R134). -/
def afterSReRd (s : State) : State := s.goto .sReWr

/-- After the write of `S_RE_WR` (R135). -/
def afterSReWr (s : State) : State := endShutdown s

end Sys2Proof.Machine
end

