-- ==== Sys2Proof/Machine/ShiftEngine.lean ====
section
/-! DEFINITION. The shift engine (41_shift_engine.md, R100 to R105). -/

namespace Sys2Proof.Machine

/-- The shift engine has a byte it may send: the core is there, `SPE`, `MSTR`, not `REN`, and `TXF` non-empty (R100 but
for the room in `RXF`). When this fails the engine has no step and bytes wait in `TXF` (R101). -/
def shiftPoised (s : State) : Bool :=
  s.iface = .core && softwareOwned s.ctrl s.rdeng && !s.txf.isEmpty

/-- The `SHIFT` step is enabled (R100). -/
def shiftEnabled (s : State) : Bool := shiftPoised s && s.rxf.length < Config.rxDepth

/-- The engine has a byte it may send and `RXF` is full: the case R101 refuses (U23). With `TXF` non-empty and `RXF` full
while a control condition fails as well, both clauses of R101 apply, and the spec does not say which wins; here the bytes
wait (U22) and nothing is refused (DESIGN CHOICE, log 16). -/
def shiftBlocked (s : State) : Bool := shiftPoised s && !shiftEnabled s

/-- The `SHIFT` step (R100): the head of `TXF` goes out, the device's answer is appended to `RXF`, one `Xfer` event.
There is none with `RXF` full (R101). -/
def shiftStep (s : State) : Result :=
  match s.txf with
  | [] => .next s
  | mosi :: rest =>
    if s.rxf.length < Config.rxDepth then
      .next (({ (exchange s s.cs0 mosi).2 with
          txf := rest
          rxf := s.rxf ++ [(exchange s s.cs0 mosi).1] } : State).emit
        (.xfer s.cs0 mosi (exchange s s.cs0 mosi).1))
    else .refused .rxfFull

end Sys2Proof.Machine
end

