-- ==== Sys2Proof/Machine/Transaction.lean ====
section
/-! DEFINITION. The micro-states of `XFER` (43_transaction_engine.md): what follows the RA operation that each of them
performs. -/

namespace Sys2Proof.Machine

/-- Where the read phase begins, or the end if there is none (R141, R144). -/
def readPhaseEntry (s : State) : MicroState := if 0 < s.regR then .xRPush else .xCsOff

/-- After the write of `X_CSON` (R141): `x[I] <- 0`, then the first phase that has bytes. -/
def afterXCsOn (s : State) : State :=
  ({ s with regI := 0 } : State).goto (if 0 < s.regW then .xWPush else readPhaseEntry s)

/-- After the push of `X_WPUSH` (R142). -/
def afterXWPush (s : State) : State := s.goto .xWPoll

/-- After the sample of `X_WPOLL` (R143): poll again while `RFEMPTY` is 1. -/
def afterXWPoll (s : State) : State := s.goto (if bit s.regS Config.pRfe then .xWPoll else .xWPop)

/-- After the pop of `X_WPOP` (R144): the byte is discarded, the index counted up; the write phase goes on or the read
phase begins at index 0. -/
def afterXWPop (s : State) : State :=
  if s.regI + 1 < s.regW then (countUp s).goto .xWPush
  else ({ s with regI := 0 } : State).goto (readPhaseEntry s)

/-- After the push of `X_RPUSH` (R145). -/
def afterXRPush (s : State) : State := s.goto .xRPoll

/-- After the sample of `X_RPOLL` (R147). -/
def afterXRPoll (s : State) : State := s.goto (if bit s.regS Config.pRfe then .xRPoll else .xRPop)

/-- After the pop of `X_RPOP` (R148): `rb[I] <- T`, the index counted up; the read phase goes on or ends. -/
def afterXRPop (s : State) : State :=
  (countUp (storeInbound s)).goto (if s.regI + 1 < s.regR then .xRPush else .xCsOff)

/-- After the write of `X_CSOFF` (R149): `Done(XFER, -)`, `IDLE`. -/
def afterXCsOff (s : State) : State := endCommand s .xfer none

end Sys2Proof.Machine
end

