-- ==== Sys2Proof/Machine/Sequencer.lean ====
section
/-! DEFINITION. The sequencer and the host as agents (R10, R33, R51): the RA operation a micro-state issues, what follows
it, the presentation of a request at `IDLE`, and who moves in a step. -/

namespace Sys2Proof.Machine

/-- The RA operation a micro-state issues (R115, R131, R140), with the state after its operand was formed (a draw counts
up `draws`, R146); none for the micro-states that perform no RA operation (R222). -/
def issue (s : State) : Option (Instr × State) :=
  match s.pc with
  | .idle => none
  | .iResolve => none
  | .iProbe => some (.rdRdeng, s)
  | .iHook => none
  | .iCsIdle => some (csOff, s)
  | .iCtrlRd => some (.rdCtrl, s)
  | .iCtrlWr => some (.wrCtrl (setBits s.regT enableMask), s)
  | .iReRd => some (.rdRdeng, s)
  | .iReWr => some (.wrRdeng (clearBits s.regT readEngineMask), s)
  | .iDrainPoll => some (.rdStat, s)
  | .iDrainPop => some (.rdFifo, s)
  | .iRegister => none
  | .xCsOn => some (csOn, s)
  | .xWPush => some (.wrFifo (outboundByte s).1, (outboundByte s).2)
  | .xWPoll => some (.rdStat, s)
  | .xWPop => some (.rdFifo, s)
  | .xRPush => some (.wrFifo (outboundByte s).1, (outboundByte s).2)
  | .xRPoll => some (.rdStat, s)
  | .xRPop => some (.rdFifo, s)
  | .xCsOff => some (csOff, s)
  | .sGuard => none
  | .sCs0 => some (csClr, s)
  | .sReRd => some (.rdRdeng, s)
  | .sReWr => some (.wrRdeng (setBits s.regT readEngineMask), s)

/-- What follows the RA operation of micro-state `p` (files Lifecycle.lean, Transaction.lean). -/
def follow (p : MicroState) (s : State) : State :=
  match p with
  | .idle => s
  | .iResolve => s
  | .iProbe => afterIProbe s
  | .iHook => s
  | .iCsIdle => afterICsIdle s
  | .iCtrlRd => afterICtrlRd s
  | .iCtrlWr => afterICtrlWr s
  | .iReRd => afterIReRd s
  | .iReWr => afterIReWr s
  | .iDrainPoll => afterIDrainPoll s
  | .iDrainPop => afterIDrainPop s
  | .iRegister => s
  | .xCsOn => afterXCsOn s
  | .xWPush => afterXWPush s
  | .xWPoll => afterXWPoll s
  | .xWPop => afterXWPop s
  | .xRPush => afterXRPush s
  | .xRPoll => afterXRPoll s
  | .xRPop => afterXRPop s
  | .xCsOff => afterXCsOff s
  | .sGuard => s
  | .sCs0 => afterSCs0 s
  | .sReRd => afterSReRd s
  | .sReWr => afterSReWr s

/-- The whole effect of a micro-state that performs no RA operation (R116, R118, R128, R132). -/
def microHost (s : State) : State :=
  match s.pc with
  | .iResolve => microIResolve s
  | .iHook => microIHook s
  | .iRegister => microIRegister s
  | .sGuard => microSGuard s
  | .idle | .iProbe | .iCsIdle | .iCtrlRd | .iCtrlWr | .iReRd | .iReWr | .iDrainPoll | .iDrainPop | .xCsOn | .xWPush
  | .xWPoll | .xWPop | .xRPush | .xRPoll | .xRPop | .xCsOff | .sCs0 | .sReRd | .sReWr => s

/-- One micro-step of the sequencer, away from `IDLE` (R32, R33): the RA operation it issues and what follows, or the
micro-state's own effect. -/
def microStep (s : State) : Result :=
  match issue s with
  | some (i, s1) => onNext (exec i s1) (follow s.pc)
  | none => .next (microHost s)

/-- The refusal of a code the decoder rejects (R66, R67). -/
def refusalOf : DecodeError → Refusal
  | .reservedZ => .reservedEncoding
  | .reservedOp => .reservedCommand

/-- An operation of the RA set (R60), as opposed to a command. -/
def isAccess : Instr → Bool
  | .init _ | .xfer _ _ _ _ _ | .shutdown _ => false
  | .rdCtrl | .wrCtrl _ | .rdStat | .wrStat _ | .rdFifo | .wrFifo _ | .rdRsva | .wrRsva _ | .rdRdeng | .wrRdeng _
  | .rdCs | .wrCs _ | .rdRsvb | .wrRsvb _ | .rdRsv7 | .wrRsv7 _ => true

/-- The accesses that R215 (2) forbids everyone but the sequencer from the start of `INIT` to the end of `SHUTDOWN`: a
write of `CTRL`, `RDENG`, `CS` or `FIFO`, and a read of `FIFO`. -/
def disturbsCore : Instr → Bool
  | .wrCtrl _ | .wrRdeng _ | .wrCs _ | .wrFifo _ | .rdFifo => true
  | .rdCtrl | .rdStat | .wrStat _ | .rdRsva | .wrRsva _ | .rdRdeng | .rdCs | .rdRsvb | .wrRsvb _ | .rdRsv7 | .wrRsv7 _
  | .init _ | .xfer _ _ _ _ _ | .shutdown _ => false

/-- A presented instruction would be a second writer's (log 15): any test access while `LC` is `READY` (R92, R214), and
one that disturbs the core while `LC` is `FAILED`, between an `INIT` and the end of `SHUTDOWN` (R215 2, U27). -/
def secondWriter (s : State) (i : Instr) : Bool :=
  match s.lc with
  | .ready => isAccess i
  | .failed => disturbsCore i
  | .uninit | .closed => false

/-- The host at `IDLE` (R10, R63, R181): the next request is taken from the queue, decoded and executed; with none
presented the sequencer waits (R196; log 25). -/
def hostStep (s : State) : Result :=
  match s.requests with
  | [] => .next s
  | c :: rest =>
    match decode c with
    | .error e => .refused (refusalOf e)
    | .ok i => if secondWriter s i then .refused .secondWriter else exec i { s with requests := rest }

/-- The sequencer's or its host's step. -/
def seqStep (s : State) : Result := if s.pc = .idle then hostStep s else microStep s

/-- A poll micro-state of `XFER` (R143, R147). -/
def isPollState : MicroState → Bool
  | .xWPoll | .xRPoll => true
  | .idle | .iResolve | .iProbe | .iHook | .iCsIdle | .iCtrlRd | .iCtrlWr | .iReRd | .iReWr | .iDrainPoll | .iDrainPop
  | .iRegister | .xCsOn | .xWPush | .xWPop | .xRPush | .xRPop | .xCsOff | .sGuard | .sCs0 | .sReRd | .sReWr => false

/-- Stuck (R179 c, U29): a poll micro-state waits for a byte, none is there, and the shift step that would bring one is
not enabled (log 23). -/
def stuck (s : State) : Bool := isPollState s.pc && s.rxf.isEmpty && !shiftEnabled s

/-- One step of the machine (R51): none where it is stuck (R179 c), and none with a meaning where the
shift engine has a byte it may send and `RXF` is full (R101, log 16); where the shift engine has a byte to send, the schedule says whether it or the sequencer
moves; elsewhere the sequencer moves. -/
def agentStep (s : State) : Result :=
  if stuck s then .fault .stuck
  else if shiftBlocked s then .refused .rxfFull
  else if shiftPoised s then
    match (nextAgent s).1 with
    | .shift => shiftStep (nextAgent s).2
    | .seq => seqStep (nextAgent s).2
  else seqStep s

/-- The state with a code presented as the host's next request (log 6): `pc` at `IDLE`, the code at the head of the
queue, the sequencer's side to move if the shift engine could, and for a register access a mapped window, which is
part of its address `HANDLE + OFF`. -/
def present (s : State) (c : Code) : State :=
  { s with
    pc := .idle
    requests := c :: s.requests
    sched := if shiftPoised s then .seq :: s.sched else s.sched
    handle :=
      match c with
      | .ra16 _ => some (s.handle.getD Config.testWindow)
      | .sc8 _ _ => s.handle }

end Sys2Proof.Machine
end

