-- ==== Sys2Proof/Machine/Step.lean ====
section
/-! DEFINITION. One step of the machine, and the placing of an instruction where the next step fetches it (log 6). -/

namespace Sys2Proof.Machine

/-- One step: of the shift engine, the sequencer, or its host (`agentStep`). -/
def step (s : State) : Host.Outcome State Fault Refusal := agentStep s

/-- `s` with the instruction of a table row presented as the host's next request, where the next step takes it; `s`
itself for bits that are no row's. -/
def State.withFetchWord (s : State) (nbits w : Nat) : State :=
  match tableCode nbits w with
  | none => s
  | some c => present s c

end Sys2Proof.Machine
end

