-- ==== Sys2Proof/Safety.lean ====
section
/-! DEFINITION. The predicates and trace readings in which claims about SPISEQ are stated: the operating states (R25, R26),
the launch premise (R207), the premises on the host (R92, R215), the invariants of a run (R21, R22, R28, R150, R154, R209),
the projections of a trace (R36, R106, R152), and the fairness premise `RESPONSIVE` (R102). -/

namespace Sys2Proof.Machine

/-! ### Operating states and premises -/

/-- `SoftwareControlled(core)` (R26). -/
def SoftwareControlled (s : State) : Prop := softwareOwned s.ctrl s.rdeng = true ∧ s.rxf = []

/-- `FirmwareBoot(core)` (R25): it holds of every core state. -/
def FirmwareBoot (_s : State) : Prop := True

/-- The launch premises (a) and (b) of `INIT` (R207). -/
def LaunchPremise (s : State) : Prop :=
  s.pc = .idle ∧ s.lc = .uninit ∧ s.handle = none ∧ s.txf = []

/-- A code is a command, not an access of the window by someone other than the sequencer. -/
def isCommand : Code → Bool
  | .sc8 _ _ => true
  | .ra16 _ => false

/-- The host presents commands only: the window has one writer (R92, R214). -/
def CommandsOnly (s : State) : Prop := ∀ c ∈ s.requests, isCommand c = true

/-- The finite list of commands of a run is processed and no command runs (R219). -/
def Ended (s : State) : Prop := s.pc = .idle ∧ s.requests = []

/-! ### Projections of a trace (R36) -/

/-- The bytes pushed into the FIFO register, in order. -/
def pushedBytes (tr : List Event) : List Byte :=
  tr.filterMap fun e => match e with
    | .acc .write .fifo v => some v
    | _ => none

/-- The bytes popped from the FIFO register, in order. -/
def poppedBytes (tr : List Event) : List Byte :=
  tr.filterMap fun e => match e with
    | .acc .read .fifo v => some v
    | _ => none

/-- The exchanges on the bus, in order: level of the line, byte sent, byte received. -/
def exchanges (tr : List Event) : List (Cs0 × Byte × Byte) :=
  tr.filterMap fun e => match e with
    | .xfer l mosi miso => some (l, mosi, miso)
    | _ => none

/-- The bytes sent on the bus, in order. -/
def sentBytes (tr : List Event) : List Byte := (exchanges tr).map fun x => x.2.1

/-- The bytes received from the bus, in order. -/
def receivedBytes (tr : List Event) : List Byte := (exchanges tr).map fun x => x.2.2

/-- The accesses of the window, in order. -/
def accesses (tr : List Event) : List Event :=
  tr.filter fun e => match e with
    | .acc _ _ _ => true
    | _ => false

/-- The accesses of the window other than the polls of `STAT`, in order. -/
def workAccesses (tr : List Event) : List Event :=
  tr.filter fun e => match e with
    | .acc _ .stat _ => false
    | .acc _ _ _ => true
    | _ => false

/-- The accesses of one full-duplex round-trip: the push of a byte and the pop of its response (R152). -/
def roundTrip (x : Byte × Byte) : List Event := [.acc .write .fifo x.1, .acc .read .fifo x.2]

/-- The write of `CS_ASSERT`, as an event. -/
def assertEvent : Event := .acc .write .cs Config.csAssert

/-- The write of `CS_DEASSERT`, as an event. -/
def deassertEvent : Event := .acc .write .cs Config.csDeassert

/-- Reading a trace for chip-select bracketing (R154, R209): whether an assert is open, or `none` once a second assert
came without a de-assert between. -/
def bracketStep (st : Option Bool) (e : Event) : Option Bool :=
  match st with
  | none => none
  | some isOpen =>
    if e = assertEvent then (if isOpen then none else some true)
    else if e = deassertEvent then some false
    else some isOpen

/-- Bracketing over a whole trace, from no assert open. -/
def bracket (tr : List Event) : Option Bool := tr.foldl bracketStep (some false)

/-! ### Invariants -/

/-- The micro-states of a transaction between its assert and its de-assert. -/
def insideBracket : MicroState → Bool
  | .xWPush | .xWPoll | .xWPop | .xRPush | .xRPoll | .xRPop | .xCsOff => true
  | .idle | .iResolve | .iProbe | .iHook | .iCsIdle | .iCtrlRd | .iCtrlWr | .iReRd | .iReWr | .iDrainPoll | .iDrainPop
  | .iRegister | .xCsOn | .sGuard | .sCs0 | .sReRd | .sReWr => false

/-- The micro-states of `INIT`. -/
def isInitState : MicroState → Bool
  | .iResolve | .iProbe | .iHook | .iCsIdle | .iCtrlRd | .iCtrlWr | .iReRd | .iReWr | .iDrainPoll | .iDrainPop
  | .iRegister => true
  | .idle | .xCsOn | .xWPush | .xWPoll | .xWPop | .xRPush | .xRPoll | .xRPop | .xCsOff | .sGuard | .sCs0 | .sReRd
  | .sReWr => false

/-- The micro-states of `XFER`. -/
def isXferState : MicroState → Bool
  | .xCsOn | .xWPush | .xWPoll | .xWPop | .xRPush | .xRPoll | .xRPop | .xCsOff => true
  | .idle | .iResolve | .iProbe | .iHook | .iCsIdle | .iCtrlRd | .iCtrlWr | .iReRd | .iReWr | .iDrainPoll | .iDrainPop
  | .iRegister | .sGuard | .sCs0 | .sReRd | .sReWr => false

/-- The micro-states of `SHUTDOWN`. -/
def isShutdownState : MicroState → Bool
  | .sGuard | .sCs0 | .sReRd | .sReWr => true
  | .idle | .iResolve | .iProbe | .iHook | .iCsIdle | .iCtrlRd | .iCtrlWr | .iReRd | .iReWr | .iDrainPoll | .iDrainPop
  | .iRegister | .xCsOn | .xWPush | .xWPoll | .xWPop | .xRPush | .xRPoll | .xRPop | .xCsOff => false

/-- Both FIFOs of the core hold at most their depth (R21, R22). The echo double has no depth (R93). -/
def FifosWithinDepth (s : State) : Prop :=
  s.iface = .core → s.rxf.length ≤ Config.rxDepth ∧ s.txf.length ≤ Config.txDepth

/-- The state's data keep their form: the caller's memory is canonical and the FIFOs are within depth. -/
def WellKept (s : State) : Prop := Memory.wf s.mem ∧ FifosWithinDepth s

/-- The bracketing invariant of a run of commands (R154): no assert came twice, and one is open exactly inside a
transaction. -/
def Bracketed (s : State) : Prop := CommandsOnly s ∧ bracket s.trace = some (insideBracket s.pc)

/-- What the two FIFOs hold at each micro-state of a run of commands launched with `TXF` empty (R150, R205, R208): one
byte in flight during a round-trip of `XFER`, none anywhere else of `XFER`, `TXF` empty everywhere else. -/
def fifoShape (s : State) : Prop :=
  match s.pc with
  | .xWPoll | .xRPoll => s.txf.length + s.rxf.length = 1
  | .xWPop | .xRPop => s.txf = [] ∧ s.rxf.length = 1
  | .xCsOn | .xWPush | .xRPush | .xCsOff | .iRegister => s.txf = [] ∧ s.rxf = []
  | .iDrainPop => s.txf = [] ∧ s.rxf ≠ []
  | .idle => s.txf = [] ∧ (s.lc = .ready → s.rxf = [])
  | .iResolve | .iProbe | .iHook | .iCsIdle | .iCtrlRd | .iCtrlWr | .iReRd | .iReWr | .iDrainPoll | .sGuard | .sCs0
  | .sReRd | .sReWr => s.txf = []

/-- What the control registers hold at each micro-state (R121, R123, R129, R133, R209). -/
def controlShape (s : State) : Prop :=
  match s.pc with
  | .iReRd | .iReWr => bit s.ctrl Config.pSpe = true ∧ bit s.ctrl Config.pMstr = true
  | .iDrainPoll | .iDrainPop | .iRegister => softwareOwned s.ctrl s.rdeng = true
  | .xWPush | .xWPoll | .xWPop | .xRPush | .xRPoll | .xRPop | .xCsOff => s.cs = Config.csAssert
  | .sReRd | .sReWr => s.cs = Config.csClear
  | .idle | .iResolve | .iProbe | .iHook | .iCsIdle | .iCtrlRd | .iCtrlWr | .xCsOn | .sGuard | .sCs0 => True

/-- The lifecycle at each micro-state (R27, R28): `INIT` runs in `UNINIT`, `XFER` in `READY`, `SHUTDOWN` before
`CLOSED`; `READY` has a mapped window in software's hands; past the first step of a command the window is mapped. -/
def lifecycleShape (s : State) : Prop :=
  (isInitState s.pc = true → s.lc = .uninit) ∧
  (isXferState s.pc = true → s.lc = .ready) ∧
  (isShutdownState s.pc = true → s.lc ≠ .closed) ∧
  (s.lc = .ready → s.handle.isSome = true ∧ softwareOwned s.ctrl s.rdeng = true) ∧
  (s.pc ≠ .idle → s.pc ≠ .iResolve → s.pc ≠ .sGuard → s.handle.isSome = true)

/-- Behind the echo double a push goes to `RXF` at once (R93), so no byte stands in `TXF`. -/
def DoubleHoldsNoOutbound (s : State) : Prop := s.iface = .echoDouble → s.txf = []

/-- The discipline of a run of commands (R205 to R211), under the premises of R207 and R214. -/
def Disciplined (s : State) : Prop :=
  CommandsOnly s ∧ DoubleHoldsNoOutbound s ∧ fifoShape s ∧ controlShape s ∧ lifecycleShape s

/-! ### Runs and fairness -/

/-- `n` steps, stopping at the first fault or refusal: `Host.Core.run` of `Sys2Proof.core`, written over `step`. -/
def run : Nat → State → Result
  | 0, s => .next s
  | n + 1, s =>
    match step s with
    | .next t => run n t
    | .fault r => .fault r
    | .refused r => .refused r

/-- An infinite run of the machine. -/
def IsRun (r : Nat → State) : Prop := ∀ n, step (r n) = .next (r (n + 1))

/-- The shift engine moves in the step from `s`. -/
def shiftMoves (s : State) : Prop := shiftEnabled s = true ∧ (nextAgent s).1 = .shift

/-- `RESPONSIVE` (R102, weak fairness): an enabled shift step is eventually taken. -/
def Responsive (r : Nat → State) : Prop :=
  ∀ n, (∀ m, n ≤ m → shiftEnabled (r m) = true) → ∃ m, n ≤ m ∧ shiftMoves (r m)

end Sys2Proof.Machine
end

