-- ==== Sys2Proof/Certificates/Slice0/Obligations.lean ====
section
/-! DEFINITION. The statements about SPISEQ for the provers. Each docstring names the rules of spec/ it formalises. Where a
clause rests on a choice of the model, the docstring names the log entry. A next state is written as the whole state
before with the fields that change, so that each such statement is its instruction's frame as well. -/

open Sys2Proof Sys2Proof.Machine

/-! ### Encoding -/

/-- R61: the opcode map. The top byte of an access word (`WR`, `Z`, `OFF`) selects the row; `DATA` is the operand of a
write and is ignored on a read. -/
def Obligations.AccessWordDecodesByItsTopByte : Prop :=
  ∀ word : BitVec 16,
    let hi := word.extractLsb' 8 8
    let data := word.extractLsb' 0 8
    (hi = 0x00#8 → decode (.ra16 word) = .ok .rdCtrl) ∧
    (hi = 0x80#8 → decode (.ra16 word) = .ok (.wrCtrl data)) ∧
    (hi = 0x01#8 → decode (.ra16 word) = .ok .rdStat) ∧
    (hi = 0x81#8 → decode (.ra16 word) = .ok (.wrStat data)) ∧
    (hi = 0x02#8 → decode (.ra16 word) = .ok .rdFifo) ∧
    (hi = 0x82#8 → decode (.ra16 word) = .ok (.wrFifo data)) ∧
    (hi = 0x03#8 → decode (.ra16 word) = .ok .rdRsva) ∧
    (hi = 0x83#8 → decode (.ra16 word) = .ok (.wrRsva data)) ∧
    (hi = 0x04#8 → decode (.ra16 word) = .ok .rdRdeng) ∧
    (hi = 0x84#8 → decode (.ra16 word) = .ok (.wrRdeng data)) ∧
    (hi = 0x05#8 → decode (.ra16 word) = .ok .rdCs) ∧
    (hi = 0x85#8 → decode (.ra16 word) = .ok (.wrCs data)) ∧
    (hi = 0x06#8 → decode (.ra16 word) = .ok .rdRsvb) ∧
    (hi = 0x86#8 → decode (.ra16 word) = .ok (.wrRsvb data)) ∧
    (hi = 0x07#8 → decode (.ra16 word) = .ok .rdRsv7) ∧
    (hi = 0x87#8 → decode (.ra16 word) = .ok (.wrRsv7 data))

/-- R66: reserved encodings of an access word are refused: (a) `Z` not 0000 is invalid and a host that presents it is
refused; (b) the reserved offsets and (c) `WR STAT` are refused in every state. -/
def Obligations.ReservedAccessWordsRefused : Prop :=
  (∀ word : BitVec 16, word.extractLsb' 11 4 ≠ 0#4 → decode (.ra16 word) = .error .reservedZ) ∧
  (∀ (s : State) (word : BitVec 16) (rest : List Code), s.pc = .idle → s.requests = .ra16 word :: rest →
    word.extractLsb' 11 4 ≠ 0#4 → seqStep s = .refused .reservedEncoding) ∧
  (∀ (s : State) (v : Byte), exec (.wrStat v) s = .refused .statusWrite ∧
    exec .rdRsva s = .refused .reservedOffset ∧ exec (.wrRsva v) s = .refused .reservedOffset ∧
    exec .rdRsvb s = .refused .reservedOffset ∧ exec (.wrRsvb v) s = .refused .reservedOffset ∧
    exec .rdRsv7 s = .refused .reservedOffset ∧ exec (.wrRsv7 v) s = .refused .reservedOffset)

/-- R67: a command code other than 0x01, 0x02, 0x03 is invalid, whatever stands beside it, and the command interface
does not accept it. -/
def Obligations.ReservedCommandCodesRefused : Prop :=
  ∀ (op : Byte) (args : CommandArgs), op ≠ 0x01#8 → op ≠ 0x02#8 → op ≠ 0x03#8 →
    decode (.sc8 op args) = .error .reservedOp ∧
    ∀ (s : State) (rest : List Code), s.pc = .idle → s.requests = .sc8 op args :: rest →
      seqStep s = .refused .reservedCommand

/-- R60, R61, R63: decoding the code of an instruction gives the instruction back, with every operand at every value. -/
def Obligations.DecodeInvertsEncode : Prop := ∀ i : Instr, decode (encode i) = .ok i

/-- R61, R63, 95_test_vectors.md section 2.1: words written out from the encodings decode to the instructions they
stand for. -/
def Obligations.SampleWordsDecode : Prop :=
  decode (.ra16 0b0000000000000000#16) = .ok .rdCtrl ∧
  decode (.ra16 0b1000000011011111#16) = .ok (.wrCtrl 0xDF#8) ∧
  decode (.ra16 0b0000000111111111#16) = .ok .rdStat ∧
  decode (.ra16 0b1000001010011111#16) = .ok (.wrFifo 0x9F#8) ∧
  decode (.ra16 0b1000010100010001#16) = .ok (.wrCs 0x11#8) ∧
  decode (.sc8 0b00000001#8 { selector := some "3a4000" }) = .ok (.init (some "3a4000")) ∧
  decode (.sc8 0b00000011#8 {}) = .ok (.shutdown 0)

/-! ### Register access operations -/

/-- R80: `RD CTRL` is encoded 0x0000, leaves `CTRL` in `T` and changes nothing else but the trace. -/
def Obligations.ReadControlLoadsT : Prop :=
  encode .rdCtrl = .ra16 0x0000#16 ∧
  ∀ s : State, s.handle.isSome = true →
    exec .rdCtrl s = .next { s with regT := s.ctrl, trace := s.trace ++ [.acc .read .ctrl s.ctrl] }

/-- R81: `WR CTRL` is encoded 0x8000 with its byte and replaces all eight bits; a write that clears `SPE` or `MSTR` when
it was set is refused; setting both with `REN = 0` enables the shift step where there is a byte and room; the sequencer
only ever writes `T` with both bits set. The refusal is the core's; the echo double is plain storage (R93). -/
def Obligations.WriteControlStoresOrRefuses : Prop :=
  (∀ v : Byte, encode (.wrCtrl v) = .ra16 (0x80#8 ++ v)) ∧
  (∀ (s : State) (v : Byte), s.handle.isSome = true →
    (s.iface = .echoDouble ∨
      ((s.ctrl.getLsbD Config.pSpe = true → v.getLsbD Config.pSpe = true) ∧
        (s.ctrl.getLsbD Config.pMstr = true → v.getLsbD Config.pMstr = true))) →
    exec (.wrCtrl v) s = .next { s with ctrl := v, trace := s.trace ++ [.acc .write .ctrl v] }) ∧
  (∀ (s : State) (v : Byte), s.handle.isSome = true → s.iface = .core →
    (s.ctrl.getLsbD Config.pSpe = true ∧ v.getLsbD Config.pSpe = false ∨
      s.ctrl.getLsbD Config.pMstr = true ∧ v.getLsbD Config.pMstr = false) →
    exec (.wrCtrl v) s = .refused .clearsEnable) ∧
  (∀ (s t : State) (v : Byte), s.iface = .core → v.getLsbD Config.pSpe = true → v.getLsbD Config.pMstr = true →
    s.rdeng.getLsbD Config.pRen = false → s.txf ≠ [] → s.rxf.length < Config.rxDepth →
    exec (.wrCtrl v) s = .next t → shiftEnabled t = true) ∧
  (∀ (s s1 : State) (v : Byte), issue s = some (.wrCtrl v, s1) →
    s.pc = .iCtrlWr ∧ v = s.regT ||| (Config.mask Config.pMstr ||| Config.mask Config.pSpe))

/-- R82: `RD STAT` behind the core is encoded 0x0100 and leaves in `S` a byte with the four occupancy flags, whose other
bits are a draw; no FIFO changes; of a sample only `RFEMPTY` is ever tested: two samples that agree on it lead to the same
micro-state. -/
def Obligations.ReadStatusSamplesOccupancy : Prop :=
  encode .rdStat = .ra16 0x0100#16 ∧
  (∀ s : State, s.handle.isSome = true → s.iface = .core →
    ∃ b : Byte,
      exec .rdStat s =
        .next { s with regS := b, draws := s.draws + 1, trace := s.trace ++ [.acc .read .stat b] } ∧
      b.getLsbD Config.pRfe = decide (s.rxf.length = 0) ∧
      b.getLsbD Config.pRff = decide (s.rxf.length = Config.rxDepth) ∧
      b.getLsbD Config.pWfe = decide (s.txf.length = 0) ∧
      b.getLsbD Config.pWff = decide (s.txf.length = Config.txDepth) ∧
      ∀ n, 4 ≤ n → b.getLsbD n = (Config.freeByte s.draws).getLsbD n) ∧
  ∀ (p : MicroState) (s : State) (b : Byte), b.getLsbD Config.pRfe = s.regS.getLsbD Config.pRfe →
    (follow p { s with regS := b }).pc = (follow p s).pc

/-- R83: `WR STAT` is encoded 0x8100 with its byte, is refused, and is never issued by the sequencer. -/
def Obligations.WriteStatusRefused : Prop :=
  ∀ (v : Byte) (s s1 : State), encode (.wrStat v) = .ra16 (0x81#8 ++ v) ∧
    exec (.wrStat v) s = .refused .statusWrite ∧ issue s ≠ some (.wrStat v, s1)

/-- R84: `WR FIFO` is encoded 0x8200 with its byte; behind the enabled core it appends the byte to `TXF`, whatever the
byte, so that `WFEMPTY` becomes 0 and `WFFULL` follows the occupancy; it is refused when not enabled and when `TXF` is
full. -/
def Obligations.PushAppendsToWriteFifo : Prop :=
  (∀ b : Byte, encode (.wrFifo b) = .ra16 (0x82#8 ++ b)) ∧
  (∀ (s : State) (b : Byte), s.handle.isSome = true → s.iface = .core → softwareOwned s.ctrl s.rdeng = true →
    s.txf.length ≠ Config.txDepth →
    ∃ t, exec (.wrFifo b) s = .next t ∧
      t = { s with txf := s.txf ++ [b], trace := s.trace ++ [.acc .write .fifo b] } ∧
      (sampleStat t).1.getLsbD Config.pWfe = false ∧
      (sampleStat t).1.getLsbD Config.pWff = decide (s.txf.length + 1 = Config.txDepth)) ∧
  (∀ (s : State) (b : Byte), s.handle.isSome = true → s.iface = .core → softwareOwned s.ctrl s.rdeng = false →
    exec (.wrFifo b) s = .refused .notEnabled) ∧
  (∀ (s : State) (b : Byte), s.handle.isSome = true → s.iface = .core → softwareOwned s.ctrl s.rdeng = true →
    s.txf.length = Config.txDepth → exec (.wrFifo b) s = .refused .txfFull)

/-- R85: `RD FIFO` is encoded 0x0200; behind the enabled core it removes the oldest byte of `RXF` and leaves it in `T`, so
that `RFEMPTY` follows the occupancy, and `RFFULL` becomes 0 where `RXF` was within its depth; it is refused when not
enabled and when `RXF` is empty. -/
def Obligations.PopTakesOldestReceivedByte : Prop :=
  encode .rdFifo = .ra16 0x0200#16 ∧
  (∀ (s : State) (b : Byte) (rest : List Byte), s.handle.isSome = true → s.iface = .core →
    softwareOwned s.ctrl s.rdeng = true → s.rxf = b :: rest →
    ∃ t, exec .rdFifo s = .next t ∧
      t = { s with rxf := rest, regT := b, trace := s.trace ++ [.acc .read .fifo b] } ∧
      (sampleStat t).1.getLsbD Config.pRfe = decide (rest.length = 0) ∧
      (s.rxf.length ≤ Config.rxDepth → (sampleStat t).1.getLsbD Config.pRff = false)) ∧
  (∀ s : State, s.handle.isSome = true → s.iface = .core → softwareOwned s.ctrl s.rdeng = false →
    exec .rdFifo s = .refused .notEnabled) ∧
  (∀ s : State, s.handle.isSome = true → s.iface = .core → softwareOwned s.ctrl s.rdeng = true → s.rxf = [] →
    exec .rdFifo s = .refused .rxfEmpty)

/-- R86: `RD RDENG` is encoded 0x0400, leaves `RDENG` in `T` and changes nothing else but the trace. -/
def Obligations.ReadReadEngineLoadsT : Prop :=
  encode .rdRdeng = .ra16 0x0400#16 ∧
  ∀ s : State, s.handle.isSome = true →
    exec .rdRdeng s = .next { s with regT := s.rdeng, trace := s.trace ++ [.acc .read .rdeng s.rdeng] }

/-- R87: `WR RDENG` is encoded 0x8400 with its byte and replaces all eight bits; behind the core a write that sets `REN`
while `TXF` is non-empty or `cs0` is asserted is refused; the sequencer writes only `T` with `REN` cleared or set. That
"sets" means from 0 to 1 is the model's reading (DEDUCED, log 14). -/
def Obligations.WriteReadEngineStoresOrRefuses : Prop :=
  (∀ v : Byte, encode (.wrRdeng v) = .ra16 (0x84#8 ++ v)) ∧
  (∀ (s : State) (v : Byte), s.handle.isSome = true →
    (s.iface = .echoDouble ∨ v.getLsbD Config.pRen = false ∨ s.rdeng.getLsbD Config.pRen = true ∨
      (s.txf = [] ∧ s.cs0 ≠ .asserted)) →
    exec (.wrRdeng v) s = .next { s with rdeng := v, trace := s.trace ++ [.acc .write .rdeng v] }) ∧
  (∀ (s : State) (v : Byte), s.handle.isSome = true → s.iface = .core → v.getLsbD Config.pRen = true →
    s.rdeng.getLsbD Config.pRen = false → (s.txf ≠ [] ∨ s.cs0 = .asserted) →
    exec (.wrRdeng v) s = .refused .engineWhileBusy) ∧
  (∀ (s s1 : State) (v : Byte), issue s = some (.wrRdeng v, s1) →
    v = s.regT &&& ~~~Config.mask Config.pRen ∨ v = s.regT ||| Config.mask Config.pRen)

/-- R88: `RD CS` is encoded 0x0500, leaves `CS` in `T`, changes nothing else but the trace, and is never issued by the
sequencer. -/
def Obligations.ReadChipSelectLoadsT : Prop :=
  encode .rdCs = .ra16 0x0500#16 ∧
  (∀ s : State, s.handle.isSome = true →
    exec .rdCs s = .next { s with regT := s.cs, trace := s.trace ++ [.acc .read .cs s.cs] }) ∧
  (∀ s s1 : State, issue s ≠ some (.rdCs, s1))

/-- R89: `WR CS` is encoded 0x8500 with its byte; behind the core each of the three patterns is stored whole and gives the
line its level, of which an arbitrary device is told (R104), and any other value is refused. That the write leaves a script
as it is, using up no answer, is the model's choice, of which R104 says nothing (DESIGN CHOICE, log 8). -/
def Obligations.WriteChipSelectDrivesLine : Prop :=
  (∀ v : Byte, encode (.wrCs v) = .ra16 (0x85#8 ++ v)) ∧
  (∀ (s : State) (v : Byte) (level : Cs0), s.handle.isSome = true → s.iface = .core →
    ((v = 0x01#8 ∧ level = .asserted) ∨ (v = 0x11#8 ∧ level = .deasserted) ∨ (v = 0x00#8 ∧ level = .hw)) →
    ∃ t, exec (.wrCs v) s = .next t ∧ t.cs0 = level ∧
      t = { s with
        cs := v
        dev := match s.dev with
          | .any seen => .any (seen ++ [.cs level])
          | d => d
        trace := s.trace ++ [.acc .write .cs v] }) ∧
  (∀ (s : State) (v : Byte), s.handle.isSome = true → s.iface = .core →
    v ≠ 0x01#8 → v ≠ 0x11#8 → v ≠ 0x00#8 → exec (.wrCs v) s = .refused .csPattern)

/-- R90: the six operations on the reserved offsets have their encodings, are refused in every state and are never issued by
the sequencer. -/
def Obligations.ReservedOffsetsRefused : Prop :=
  ∀ (v : Byte) (s : State),
    (∀ (i : Instr) (s1 : State), i ∈ [.rdRsva, .wrRsva v, .rdRsvb, .wrRsvb v, .rdRsv7, .wrRsv7 v] →
      issue s ≠ some (i, s1)) ∧
    (encode .rdRsva = .ra16 0x0300#16 ∧ exec .rdRsva s = .refused .reservedOffset) ∧
    (encode (.wrRsva v) = .ra16 (0x83#8 ++ v) ∧ exec (.wrRsva v) s = .refused .reservedOffset) ∧
    (encode .rdRsvb = .ra16 0x0600#16 ∧ exec .rdRsvb s = .refused .reservedOffset) ∧
    (encode (.wrRsvb v) = .ra16 (0x86#8 ++ v) ∧ exec (.wrRsvb v) s = .refused .reservedOffset) ∧
    (encode .rdRsv7 = .ra16 0x0700#16 ∧ exec .rdRsv7 s = .refused .reservedOffset) ∧
    (encode (.wrRsv7 v) = .ra16 (0x87#8 ++ v) ∧ exec (.wrRsv7 v) s = .refused .reservedOffset)

/-- R91: every RA operation that answers a next state had the window mapped and appends exactly one `Acc` event; with
`HANDLE` unset it is refused; none raises an error: `ST`, `LC`, `pc`, the index and length registers, the operands held,
the memory, the requests and the registrations are unchanged. -/
def Obligations.AccessMovesOneByteAndRaisesNothing : Prop :=
  (∀ (i : Instr) (s t : State), isAccess i = true → exec i s = .next t →
    s.handle.isSome = true ∧ (∃ d r v, t.trace = s.trace ++ [.acc d r v]) ∧
    t.pc = s.pc ∧ t.lc = s.lc ∧ t.regST = s.regST ∧ t.handle = s.handle ∧ t.hooked = s.hooked ∧
    t.master = s.master ∧ t.regI = s.regI ∧ t.regW = s.regW ∧ t.regR = s.regR ∧ t.held = s.held ∧ t.mem = s.mem ∧
    t.requests = s.requests ∧ t.sched = s.sched ∧ t.iface = s.iface) ∧
  (∀ (i : Instr) (s : State), isAccess i = true → s.handle = none → ∃ r, exec i s = .refused r)

/-- R93: the echo double. A push makes the byte available to read at once, behind the bytes already there; `RD STAT` returns
`RFEMPTY` from `RXF`; a pop takes the oldest byte; `CTRL`, `RDENG` and `CS` store any byte; the shift engine has no step: the
step is the sequencer's, unless the machine is stuck (R179 c, log 23). These clauses are the model's reading of what R93
leaves unsaid (DEDUCED, log 9): that neither a push nor a pop checks an enable or a depth, that a sample of `STAT` counts one
draw, its other bits being those of the drawn byte, and that the device is told of no write of `CS`. -/
def Obligations.EchoDoubleReadsBackPushes : Prop :=
  ∀ (s : State), s.handle.isSome = true → s.iface = .echoDouble →
    (∀ b, exec (.wrFifo b) s =
      .next { s with rxf := s.rxf ++ [b], trace := s.trace ++ [.acc .write .fifo b] }) ∧
    (∃ b : Byte,
      exec .rdStat s =
        .next { s with regS := b, draws := s.draws + 1, trace := s.trace ++ [.acc .read .stat b] } ∧
      b.getLsbD Config.pRfe = decide (s.rxf.length = 0) ∧
      ∀ n, 1 ≤ n → b.getLsbD n = (Config.freeByte s.draws).getLsbD n) ∧
    (∀ b rest, s.rxf = b :: rest →
      exec .rdFifo s = .next { s with rxf := rest, regT := b, trace := s.trace ++ [.acc .read .fifo b] }) ∧
    (∀ v, exec (.wrCtrl v) s = .next { s with ctrl := v, trace := s.trace ++ [.acc .write .ctrl v] }) ∧
    (∀ v, exec (.wrRdeng v) s = .next { s with rdeng := v, trace := s.trace ++ [.acc .write .rdeng v] }) ∧
    (∀ v, exec (.wrCs v) s = .next { s with cs := v, trace := s.trace ++ [.acc .write .cs v] }) ∧
    (stuck s = false → step s = seqStep s)

/-- R20: a status sample never has both `RFEMPTY` and `RFFULL`, whatever the depth of at least 1, and a pop behind the
enabled core is safe exactly when `RFEMPTY` is 0. -/
def Obligations.EmptyAndFullNeverBoth : Prop :=
  (∀ s : State, s.iface = .core →
    ¬((sampleStat s).1.getLsbD Config.pRfe = true ∧ (sampleStat s).1.getLsbD Config.pRff = true)) ∧
  (∀ s : State, s.handle.isSome = true → s.iface = .core → softwareOwned s.ctrl s.rdeng = true →
    ((∃ t, exec .rdFifo s = .next t) ↔ (sampleStat s).1.getLsbD Config.pRfe = false))

/-! ### Commands -/

/-- R63, R115: `INIT` is encoded 0x01 with its selector; presented at `IDLE` in `UNINIT` it is accepted: `pc` goes to
`I_RESOLVE` and the selector is held; nothing else changes. -/
def Obligations.InitAccepted : Prop :=
  ∀ (s : State) (sel : Option String), encode (.init sel) = .sc8 0x01#8 { selector := sel } ∧
    (s.pc = .idle → s.lc = .uninit →
      exec (.init sel) s = .next { s with pc := .iResolve, held := { selector := sel } })

/-- R63, R140: `XFER` is encoded 0x02 with its operands; presented at `IDLE` in `READY` with disjoint buffers it is
accepted: `x[W]`, `x[R]` are latched and `pc` goes to `X_CSON`; nothing else changes, whatever the context. -/
def Obligations.XferAccepted : Prop :=
  ∀ (s : State) (w r : Nat) (wb rb : Nat) (ctx : Nat),
    encode (.xfer w r wb rb ctx) = .sc8 0x02#8 { w := w, r := r, wbBase := wb, rbBase := rb, ctx := ctx } ∧
    (s.pc = .idle → s.lc = .ready → (Instr.xfer w r wb rb ctx).wf = true →
      exec (.xfer w r wb rb ctx) s =
        .next { s with
          pc := .xCsOn, regW := w, regR := r
          held := { w := w, r := r, wbBase := wb, rbBase := rb, ctx := ctx } })

/-- R63, R131: `SHUTDOWN` is encoded 0x03; presented at `IDLE` before any other `SHUTDOWN` it is accepted: `pc` goes to
`S_GUARD`; nothing else changes, whatever the context. -/
def Obligations.ShutdownAccepted : Prop :=
  ∀ (s : State) (ctx : Nat), encode (.shutdown ctx) = .sc8 0x03#8 { ctx := ctx } ∧
    (s.pc = .idle → s.lc ≠ .closed →
      exec (.shutdown ctx) s = .next { s with pc := .sGuard, held := { ctx := ctx } })

/-- R181: a command is accepted only at `IDLE`; `XFER` with `LC` not `READY`, `INIT` with `LC` not `UNINIT`, a second
`SHUTDOWN` and a reserved code are refused. -/
def Obligations.MisplacedCommandsRefused : Prop :=
  (∀ (s : State) (sel : Option String) (w r : Nat) (wb rb : Nat) (ctx : Nat), s.pc ≠ .idle →
    exec (.init sel) s = .refused .busy ∧ exec (.xfer w r wb rb ctx) s = .refused .busy ∧
    exec (.shutdown ctx) s = .refused .busy) ∧
  (∀ (s : State) (w r : Nat) (wb rb : Nat) (ctx : Nat), s.pc = .idle → s.lc ≠ .ready →
    exec (.xfer w r wb rb ctx) s = .refused .notReady) ∧
  (∀ (s : State) (sel : Option String), s.pc = .idle → s.lc ≠ .uninit →
    exec (.init sel) s = .refused .initNotFirst) ∧
  (∀ (s : State) (ctx : Nat), s.pc = .idle → s.lc = .closed → exec (.shutdown ctx) s = .refused .secondShutdown) ∧
  (∀ (s : State) (op : Byte) (args : CommandArgs) (rest : List Code), s.pc = .idle →
    s.requests = .sc8 op args :: rest → op ≠ 0x01#8 → op ≠ 0x02#8 → op ≠ 0x03#8 →
    seqStep s = .refused .reservedCommand)

/-- R34: an `XFER` whose buffers overlap is ill-formed and is refused. -/
def Obligations.OverlappingBuffersRefused : Prop :=
  ∀ (s : State) (w r : Nat) (wb rb a : Nat) (ctx : Nat), s.pc = .idle → s.lc = .ready →
    wb ≤ a → a < wb + w → rb ≤ a → a < rb + r →
    (Instr.xfer w r wb rb ctx).wf = false ∧ exec (.xfer w r wb rb ctx) s = .refused .buffersOverlap

/-! ### The shift engine and the device -/

/-- R100: the shift step is enabled exactly under its five conditions, and then moves the head of `TXF` over the bus and
the device's answer to the tail of `RXF`, with one `Xfer` event; the two empty flags and `WFFULL` follow. That where it is
enabled it moves in the machine's step when `nextAgent`, the schedule and past its end a free value, says so is the
model's choice of how it takes the interleaving of R51 (DESIGN CHOICE, log 5). -/
def Obligations.ShiftStepExchangesOneByte : Prop :=
  (∀ s : State, s.iface = .core →
    (shiftEnabled s = true ↔
      s.ctrl.getLsbD Config.pSpe = true ∧ s.ctrl.getLsbD Config.pMstr = true ∧ s.rdeng.getLsbD Config.pRen = false ∧
      1 ≤ s.txf.length ∧ s.rxf.length < Config.rxDepth)) ∧
  (∀ (s : State) (mosi : Byte) (rest : List Byte), shiftEnabled s = true → s.txf = mosi :: rest →
    ∃ (miso : Byte) (d : State) (t : State), exchange s s.cs0 mosi = (miso, d) ∧
      t = { d with
        txf := rest
        rxf := s.rxf ++ [miso]
        trace := s.trace ++ [.xfer s.cs0 mosi miso] } ∧
      shiftStep s = .next t ∧
      (sampleStat t).1.getLsbD Config.pRfe = false ∧
      (sampleStat t).1.getLsbD Config.pWfe = decide (rest.length = 0) ∧
      (sampleStat t).1.getLsbD Config.pRff = decide (s.rxf.length + 1 = Config.rxDepth) ∧
      (s.txf.length ≤ Config.txDepth → (sampleStat t).1.getLsbD Config.pWff = false)) ∧
  (∀ s : State, shiftEnabled s = true → (nextAgent s).1 = .shift → step s = shiftStep (nextAgent s).2)

/-- R101: with a control condition failing, bytes in `TXF` wait: the shift engine has no step, and the machine's step is
the sequencer's, unless it is stuck waiting for such a byte (R179 c, log 23); behind the enabled core with `TXF`
non-empty and `RXF` full the machine is refused, whoever would move. That bytes wait also where a control condition fails and
`RXF` is full as well, to which both clauses of R101 apply, is the model's choice (DESIGN CHOICE, log 16). -/
def Obligations.ShiftEngineWaitsOrIsRefused : Prop :=
  (∀ s : State, softwareOwned s.ctrl s.rdeng = false → shiftEnabled s = false ∧ (stuck s = false → step s = seqStep s)) ∧
  (∀ s : State, s.iface = .core → softwareOwned s.ctrl s.rdeng = true → s.txf ≠ [] → Config.rxDepth ≤ s.rxf.length →
    step s = .refused .rxfFull)

/-- R104, R105: the echo device answers an asserted exchange with the byte sent, the scripted device with its next
answer, an arbitrary device with a function of everything it was shown; an exchange with the line not asserted receives
a draw, and an arbitrary device sees it. An exchange changes the device and the number of draws alone. That a script at its
end answers a draw, and that an exchange with the line not asserted uses up no answer of a script, is the model's choice
(DESIGN CHOICE, log 8). -/
def Obligations.DeviceAnswersExchange : Prop :=
  (∀ (s : State) (mosi : Byte), s.dev = .echo → exchange s .asserted mosi = (mosi, s)) ∧
  (∀ (s : State) (mosi a : Byte) (rest : List Byte), s.dev = .scripted (a :: rest) →
    exchange s .asserted mosi = (a, { s with dev := .scripted rest })) ∧
  (∀ (s : State) (mosi : Byte) (seen : List DevEvent), s.dev = .any seen →
    exchange s .asserted mosi =
      (Config.devAnswer seen .asserted mosi, { s with dev := .any (seen ++ [.xfer .asserted mosi]) })) ∧
  (∀ (s : State) (mosi : Byte), s.dev = .scripted [] →
    exchange s .asserted mosi = (Config.freeByte s.draws, { s with draws := s.draws + 1 })) ∧
  (∀ (s : State) (level : Cs0) (mosi : Byte), level ≠ .asserted →
    exchange s level mosi =
      (Config.freeByte s.draws,
        { s with
          draws := s.draws + 1
          dev := match s.dev with
            | .any seen => .any (seen ++ [.xfer level mosi])
            | d => d }))

/-! ### Micro-steps of INIT and SHUTDOWN -/

/-- R116: `I_RESOLVE` classifies the selector; with no family it raises `ConfigurationError` and calls nobody; else it
calls `Map` with the family's base and the window's length; a failure raises `MappingError`, a pointer becomes
`HANDLE`. That an answer which the state does not script is one of the two is the model's choice of how it takes an input
(R163: it must cover both; DESIGN CHOICE, log 7). -/
def Obligations.ResolveMapsTheWindow : Prop :=
  (∀ s : State, s.pc = .iResolve → Config.classify s.held.selector = none →
    seqStep s = .next (raiseError s (.configuration s.held.selector))) ∧
  (∀ (s : State) (fam : Family), s.pc = .iResolve → Config.classify s.held.selector = some fam →
    s.mapReply = .failure →
    seqStep s = .next (raiseError
      { s with trace := s.trace ++ [.host (.map Config.mapLabel (Config.base fam) 8 none)] }
      (.mapping (Config.base fam)))) ∧
  (∀ (s : State) (fam : Family) (p : Nat), s.pc = .iResolve → Config.classify s.held.selector = some fam →
    s.mapReply = .pointer p →
    seqStep s = .next { s with
      pc := .iProbe
      handle := some p
      trace := s.trace ++ [.host (.map Config.mapLabel (Config.base fam) 8 (some p))] }) ∧
  (∀ (s : State) (fam : Family), s.pc = .iResolve → Config.classify s.held.selector = some fam →
    s.mapReply = .free →
    ∃ t, seqStep s = .next t ∧
      ((∃ p, t.pc = .iProbe ∧ t.handle = some p) ∨
        (t.pc = .idle ∧ t.lc = .failed ∧ t.regST = .error (.mapping (Config.base fam)) ∧ t.handle = s.handle)))

/-- R117: `I_PROBE` reads `RDENG`, warns if `REN` is 0, and goes on either way. -/
def Obligations.ProbeWarnsWhenReadEngineOff : Prop :=
  ∀ s : State, s.pc = .iProbe → s.handle.isSome = true →
    (s.rdeng.getLsbD Config.pRen = true →
      seqStep s = .next { s with
        pc := .iHook, regT := s.rdeng, trace := s.trace ++ [.acc .read .rdeng s.rdeng] }) ∧
    (s.rdeng.getLsbD Config.pRen = false →
      seqStep s = .next { s with
        pc := .iHook, regT := s.rdeng
        trace := s.trace ++ [.acc .read .rdeng s.rdeng] ++ [.diag .warning .readEngineOff] })

/-- R118: `I_HOOK` registers `SHUTDOWN` as the hook; a refusal of the host raises `RegistrationError`. That an
answer which the state does not script is one of the two is the model's choice of how it takes an input (R164; DESIGN
CHOICE, log 7). -/
def Obligations.HookRegistersShutdown : Prop :=
  (∀ s : State, s.pc = .iHook → s.hookReply = .ok →
    seqStep s = .next { s with
      pc := .iCsIdle
      hooked := true
      trace := s.trace ++ [.host (.registerShutdownHook .shutdown Config.hookContext true)] }) ∧
  (∀ s : State, s.pc = .iHook → s.hookReply = .fail →
    seqStep s = .next (raiseError
      { s with trace := s.trace ++ [.host (.registerShutdownHook .shutdown Config.hookContext false)] }
      (.registration .hook))) ∧
  (∀ s : State, s.pc = .iHook → s.hookReply = .free →
    ∃ t, seqStep s = .next t ∧
      ((t.pc = .iCsIdle ∧ t.hooked = true) ∨
        (t.pc = .idle ∧ t.lc = .failed ∧ t.regST = .error (.registration .hook) ∧ t.hooked = s.hooked)))

/-- R119 to R123: de-assert the line, set `MSTR` and `SPE` keeping the other bits, clear `REN` keeping the other bits,
each read-modify-write in two micro-steps. The device is told of the line behind the core (R104; a script is left as it is, log 8), and not behind the echo
double (the model's choice, log 9). -/
def Obligations.InitConfiguresTheRegisters : Prop :=
  ∀ s : State, s.handle.isSome = true →
    (s.pc = .iCsIdle →
      ∃ t, seqStep s = .next t ∧ t.cs0 = .deasserted ∧
        t = { s with
          pc := .iCtrlRd, cs := 0x11#8
          dev := match s.iface with
            | .core => (deviceSees s (.cs .deasserted)).dev
            | .echoDouble => s.dev
          trace := s.trace ++ [.acc .write .cs 0x11#8] }) ∧
    (s.pc = .iCtrlRd →
      seqStep s = .next { s with
        pc := .iCtrlWr, regT := s.ctrl, trace := s.trace ++ [.acc .read .ctrl s.ctrl] }) ∧
    (s.pc = .iCtrlWr →
      ∃ v : Byte, seqStep s = .next { s with
        pc := .iReRd, ctrl := v, trace := s.trace ++ [.acc .write .ctrl v] } ∧
        ∀ n, n < 8 → v.getLsbD n = (decide (n = 4) || decide (n = 6) || s.regT.getLsbD n)) ∧
    (s.pc = .iReRd →
      seqStep s = .next { s with
        pc := .iReWr, regT := s.rdeng, trace := s.trace ++ [.acc .read .rdeng s.rdeng] }) ∧
    (s.pc = .iReWr →
      ∃ v : Byte, seqStep s = .next { s with
        pc := .iDrainPoll, rdeng := v, trace := s.trace ++ [.acc .write .rdeng v] } ∧
        ∀ n, n < 8 → v.getLsbD n = (!decide (n = 0) && s.regT.getLsbD n))

/-- R126, R127: the drain tests `RFEMPTY` first, leaves when it is 1, and otherwise pops one byte, discards it and tests
again. The state is under software control, as it is from `I_RE_WR` on. -/
def Obligations.DrainPopsUntilEmpty : Prop :=
  ∀ s : State, s.handle.isSome = true →
    (s.pc = .iDrainPoll →
      ∃ b : Byte, seqStep s = .next { s with
        pc := if s.rxf = [] then .iRegister else .iDrainPop
        regS := b, draws := s.draws + 1, trace := s.trace ++ [.acc .read .stat b] }) ∧
    (∀ b rest, s.pc = .iDrainPop → softwareOwned s.ctrl s.rdeng = true → s.rxf = b :: rest →
      seqStep s = .next { s with
        pc := .iDrainPoll, rxf := rest, regT := b, trace := s.trace ++ [.acc .read .fifo b] })

/-- R128, R161: `I_REGISTER` hands the operation table to the host (unlimited transfer sizes, one operation implemented by
`XFER`, three by the framework); accepted, the block is the bus master, `READY`, with status `Ok`; refused, it raises
`RegistrationError`. That an answer which the state does not script is one of the two is the model's choice of how it takes
an input (R165; DESIGN CHOICE, log 7). That the operands held for the command are gone at its end is R31's (DEDUCED,
log 21). -/
def Obligations.RegisterMakesTheBlockReady : Prop :=
  opTable = { maxRead := .unlimited, maxWrite := .unlimited, single := .command .xfer, multi := .framework,
              bulkRead := .framework, pagedWrite := .framework } ∧
  (∀ s : State, s.pc = .iRegister → s.masterReply = .ok →
    seqStep s = .next { s with
      pc := .idle, master := true, lc := .ready, regST := .ok, held := {}
      trace := s.trace ++ [.host (.registerBusMaster opTable true)] ++ [.done .init (some .ok)] }) ∧
  (∀ s : State, s.pc = .iRegister → s.masterReply = .fail →
    seqStep s = .next (raiseError
      { s with trace := s.trace ++ [.host (.registerBusMaster opTable false)] } (.registration .master))) ∧
  (∀ s : State, s.pc = .iRegister → s.masterReply = .free →
    ∃ t, seqStep s = .next t ∧ t.pc = .idle ∧
      ((t.lc = .ready ∧ t.regST = .ok ∧ t.master = true) ∨
        (t.lc = .failed ∧ t.regST = .error (.registration .master) ∧ t.master = s.master)))

/-- R132 to R135: the four micro-steps of `SHUTDOWN`: the guard skips the body with `HANDLE` unset; the raw clear of `CS`;
`REN` set by read-modify-write, keeping the other bits; the end, `CLOSED` with status `Ok`. The last step ends so where
its `WR RDENG` is not refused, and is refused where it would set `REN` from 0 to 1 while `TXF` is non-empty or the line
asserted (R87; that "sets" means from 0 to 1 is DEDUCED, log 14). That the operands held for the command are gone at its end
is R31's (DEDUCED, log 21). The device is told of the line behind the core (R104; a script is left as it is, log 8), and not
behind the echo double (the model's choice, log 9). -/
def Obligations.ShutdownMicroSteps : Prop :=
  (∀ s : State, s.pc = .sGuard → s.handle = none →
    seqStep s = .next { s with
      pc := .idle, lc := .closed, regST := .ok, held := {}, trace := s.trace ++ [.done .shutdown (some .ok)] }) ∧
  (∀ s : State, s.pc = .sGuard → s.handle.isSome = true → seqStep s = .next { s with pc := .sCs0 }) ∧
  (∀ s : State, s.pc = .sCs0 → s.handle.isSome = true →
    ∃ t, seqStep s = .next t ∧ t.cs0 = .hw ∧
      t = { s with
        pc := .sReRd, cs := 0x00#8
        dev := match s.iface with
          | .core => (deviceSees s (.cs .hw)).dev
          | .echoDouble => s.dev
        trace := s.trace ++ [.acc .write .cs 0x00#8] }) ∧
  (∀ s : State, s.pc = .sReRd → s.handle.isSome = true →
    seqStep s = .next { s with
      pc := .sReWr, regT := s.rdeng, trace := s.trace ++ [.acc .read .rdeng s.rdeng] }) ∧
  (∀ s : State, s.pc = .sReWr → s.handle.isSome = true → s.iface = .core → s.rdeng.getLsbD Config.pRen = false →
    (s.txf ≠ [] ∨ s.cs0 = .asserted) → seqStep s = .refused .engineWhileBusy) ∧
  (∀ s : State, s.pc = .sReWr → s.handle.isSome = true →
    (s.iface = .echoDouble ∨ s.rdeng.getLsbD Config.pRen = true ∨ (s.txf = [] ∧ s.cs0 ≠ .asserted)) →
    ∃ v : Byte, seqStep s = .next { s with
      pc := .idle, rdeng := v, lc := .closed, regST := .ok, held := {}
      trace := s.trace ++ [.acc .write .rdeng v] ++ [.done .shutdown (some .ok)] } ∧
      ∀ n, n < 8 → v.getLsbD n = (decide (n = 0) || s.regT.getLsbD n))

/-! ### Micro-steps of XFER -/

/-- R141 to R144: assert the line and start at index 0; in the write phase push `wb[I]`, poll until `RFEMPTY` is 0, pop and
discard, count up. The device is told of the line (R104; a script is left as it is, log 8). The state is the enabled core with room in `TXF`. -/
def Obligations.WritePhaseMicroSteps : Prop :=
  ∀ s : State, s.handle.isSome = true → s.iface = .core → softwareOwned s.ctrl s.rdeng = true →
    (s.pc = .xCsOn →
      ∃ t, seqStep s = .next t ∧ t.cs0 = .asserted ∧
        t = { s with
          pc := if 0 < s.regW then .xWPush else if 0 < s.regR then .xRPush else .xCsOff
          cs := 0x01#8, dev := (deviceSees s (.cs .asserted)).dev, regI := 0, trace := s.trace ++ [.acc .write .cs 0x01#8] }) ∧
    (s.pc = .xWPush → s.regI < s.regW → s.txf.length ≠ Config.txDepth →
      seqStep s = .next { s with
        pc := .xWPoll
        txf := s.txf ++ [memRead s.mem (s.held.wbBase + s.regI)]
        trace := s.trace ++ [.acc .write .fifo (memRead s.mem (s.held.wbBase + s.regI))] }) ∧
    (s.pc = .xWPoll →
      ∃ b : Byte, seqStep s = .next { s with
        pc := if s.rxf = [] then .xWPoll else .xWPop
        regS := b, draws := s.draws + 1, trace := s.trace ++ [.acc .read .stat b] }) ∧
    (∀ b rest, s.pc = .xWPop → s.rxf = b :: rest →
      seqStep s = .next { s with
        pc := if s.regI + 1 < s.regW then .xWPush else if 0 < s.regR then .xRPush else .xCsOff
        regI := if s.regI + 1 < s.regW then s.regI + 1 else 0
        rxf := rest, regT := b, trace := s.trace ++ [.acc .read .fifo b] })

/-- R145 to R149: in the read phase push `wb[I]`, or a draw at `I >= W`; poll; pop and store at `rb[I]`, every other byte
of the caller's memory unchanged; count up; at the end de-assert the line, of which the device is told (R104; a script is left as it is, log 8), and
the operands held for the command are gone (R31; DEDUCED, log 21). The state is the enabled core with room in `TXF`. -/
def Obligations.ReadPhaseMicroSteps : Prop :=
  ∀ s : State, s.handle.isSome = true → s.iface = .core → softwareOwned s.ctrl s.rdeng = true →
    (s.pc = .xRPush → s.regI < s.regW → s.txf.length ≠ Config.txDepth →
      seqStep s = .next { s with
        pc := .xRPoll
        txf := s.txf ++ [memRead s.mem (s.held.wbBase + s.regI)]
        trace := s.trace ++ [.acc .write .fifo (memRead s.mem (s.held.wbBase + s.regI))] }) ∧
    (s.pc = .xRPush → s.regW ≤ s.regI → s.txf.length ≠ Config.txDepth →
      seqStep s = .next { s with
        pc := .xRPoll
        txf := s.txf ++ [Config.freeByte s.draws]
        draws := s.draws + 1
        trace := s.trace ++ [.acc .write .fifo (Config.freeByte s.draws)] }) ∧
    (s.pc = .xRPoll →
      ∃ b : Byte, seqStep s = .next { s with
        pc := if s.rxf = [] then .xRPoll else .xRPop
        regS := b, draws := s.draws + 1, trace := s.trace ++ [.acc .read .stat b] }) ∧
    (∀ b rest, s.pc = .xRPop → s.rxf = b :: rest →
      ∃ m : Memory, seqStep s = .next { s with
        pc := if s.regI + 1 < s.regR then .xRPush else .xCsOff
        regI := s.regI + 1, rxf := rest, regT := b, mem := m, trace := s.trace ++ [.acc .read .fifo b] } ∧
        ∀ a, memRead m a = if a = s.held.rbBase + s.regI then b else memRead s.mem a) ∧
    (s.pc = .xCsOff →
      ∃ t, seqStep s = .next t ∧ t.cs0 = .deasserted ∧
        t = { s with
          pc := .idle, cs := 0x11#8, dev := (deviceSees s (.cs .deasserted)).dev, held := {}
          trace := s.trace ++ [.acc .write .cs 0x11#8] ++ [.done .xfer none] })

/-! ### Errors, parameters, reset, the step -/

/-- R174: `raise E(info)`: the diagnostic, `ST`, `LC = FAILED`, `Done(INIT, E)`, `IDLE`; nothing else changes but that the
operands held for the command are gone (R31, log 21). -/
def Obligations.RaiseChangesStatusOnly : Prop :=
  ∀ (s : State) (e : InitError),
    raiseError s e = { s with
      pc := .idle, lc := .failed, regST := .error e, held := {}
      trace := s.trace ++
        [.diag .error (match e with
          | .configuration _ => .configuration
          | .mapping _ => .mapping
          | .registration _ => .registration)] ++ [.done .init (some (.error e))] }

/-- R176: the causes are tested in micro-state order, and the first to hold is reported: an unrecognised selector is
reported whatever the host would have answered, and neither `Map` nor a registration is called. -/
def Obligations.FirstCauseIsReported : Prop :=
  ∀ (s : State) (m : MapReply) (h b : RegReply), s.pc = .iResolve → Config.classify s.held.selector = none →
    ∃ t, seqStep { s with mapReply := m, hookReply := h, masterReply := b } = .next t ∧
      t.regST = .error (.configuration s.held.selector) ∧ t.pc = .idle ∧
      t.trace = s.trace ++ [.diag .error .configuration] ++
        [.done .init (some (.error (.configuration s.held.selector)))]

/-- R6: the fixed points of `classify`. -/
def Obligations.ClassifyFixedPoints : Prop :=
  Config.classify (some "3a4000") = some .f64G ∧ Config.classify (some "unknown9000") = none ∧
  Config.classify (some "") = none ∧ Config.classify none = none

/-- R5, R64: whatever the OPEN parameters are, the two bases differ, both depths are at least 1, `Ok` is status 0 and every
error is a non-zero status. -/
def Obligations.OpenParametersKeepTheirBounds : Prop :=
  Config.base .f64C ≠ Config.base .f64G ∧ 1 ≤ Config.rxDepth ∧ 1 ≤ Config.txDepth ∧ statusCode .ok = 0 ∧
  ∀ e : InitError, statusCode (.error e) ≠ 0

/-- R39: the sequencer's state after reset, and that the machine waits there for a command (R196). That a step from there
changes nothing rests on the model's choices that `TXF` is empty and `CTRL` is 0x00 at reset, so that the shift engine
cannot move (DESIGN CHOICE, log 1), that nothing is presented (DESIGN CHOICE, log 6), and that waiting is a step to the
same state (DEDUCED, log 25). -/
def Obligations.ResetLeavesSequencerIdle : Prop :=
  State.reset.pc = .idle ∧ State.reset.handle = none ∧ State.reset.lc = .uninit ∧ State.reset.hooked = false ∧
  State.reset.master = false ∧ State.reset.trace = [] ∧ step State.reset = .next State.reset

/-- R10, R33, R63: what a step runs. A request presented at `IDLE` with the shift engine not to move is decoded and the step
is `exec` of it on the state without it in the queue; the micro-program's access is the step's instruction, followed by
what its micro-state says, unless the machine is stuck (R179 c, log 23). A test access is refused as a second
writer's while `LC` is `READY` (R92, R214), and while `LC` is `FAILED` where it writes `CTRL`, `RDENG`, `CS` or `FIFO` or
reads `FIFO` (R215 2). These clauses are the model's: that any other test access (R88, R137) is presented at `IDLE` and
runs (DEDUCED, log 15); that `nextAgent`, the schedule
and past its end a free value, says whose turn it is where the shift step is enabled (DESIGN CHOICE, log 5); and that a
presented table word is what the next step from reset runs (DESIGN CHOICE, log 6). -/
def Obligations.StepRunsTheDecodedInstruction : Prop :=
  (∀ (s : State) (op : Byte) (args : CommandArgs) (rest : List Code) (i : Instr), s.pc = .idle →
    shiftPoised s = false → s.requests = .sc8 op args :: rest → decode (.sc8 op args) = .ok i →
    step s = exec i { s with requests := rest }) ∧
  (∀ (s : State) (word : BitVec 16) (rest : List Code) (i : Instr), s.pc = .idle → s.lc ≠ .ready →
    (s.lc = .failed → disturbsCore i = false) →
    shiftPoised s = false → s.requests = .ra16 word :: rest → decode (.ra16 word) = .ok i →
    step s = exec i { s with requests := rest }) ∧
  (∀ (s : State) (word : BitVec 16) (rest : List Code) (i : Instr), s.pc = .idle →
    (s.lc = .ready ∨ s.lc = .failed ∧ disturbsCore i = true) →
    shiftPoised s = false → s.requests = .ra16 word :: rest → decode (.ra16 word) = .ok i →
    step s = .refused .secondWriter) ∧
  (∀ (s s1 : State) (i : Instr), s.pc ≠ .idle → shiftPoised s = false → stuck s = false → issue s = some (i, s1) →
    step s = onNext (exec i s1) (follow s.pc)) ∧
  (∀ s : State, shiftEnabled s = true → (nextAgent s).1 = .seq → step s = seqStep (nextAgent s).2) ∧
  (∀ (nbits w : Nat) (i : Instr), decodeTableWord nbits w = some i →
    ∃ h, step (State.reset.withFetchWord nbits w) = exec i { State.reset with handle := h } ∧
      (nbits = 8 → h = none))

/-! ### Whole commands -/

/-- R129: `INIT` launched with `TXF` empty, a recognised selector and a host that answers ok runs to the end with status
`Ok` in the software-controlled state, the line de-asserted, the window mapped, the block hooked and bus master, the
unnamed bits of `CTRL` and `RDENG` as they were. -/
def Obligations.InitEndsSoftwareControlled : Prop :=
  ∀ (s : State) (sel : Option String) (fam : Family) (p : Nat),
    s.pc = .idle → s.lc = .uninit → s.txf = [] → Config.classify sel = some fam →
    s.mapReply = .pointer p → s.hookReply = .ok → s.masterReply = .ok →
    ∃ s1 n t, exec (.init sel) s = .next s1 ∧ run n s1 = .next t ∧
      t.pc = .idle ∧ t.lc = .ready ∧ t.regST = .ok ∧ SoftwareControlled t ∧ t.cs0 = .deasserted ∧
      t.handle = some p ∧ t.hooked = true ∧ t.master = true ∧ t.txf = [] ∧ t.mem = s.mem ∧
      (∀ b, b < 8 → b ≠ Config.pSpe → b ≠ Config.pMstr → t.ctrl.getLsbD b = s.ctrl.getLsbD b) ∧
      (∀ b, b < 8 → b ≠ Config.pRen → t.rdeng.getLsbD b = s.rdeng.getLsbD b)

/-- R130: what a failed `INIT` leaves, by the point of failure: the accesses done (at `I_REGISTER` those of steps 2 to 7:
one sample of `STAT` more than there were bytes to drain, and the others in their order), and the core as it was or as
R129 says. -/
def Obligations.FailedInitLeavesWhatHappened : Prop :=
  ∀ (s : State) (sel : Option String),
    s.pc = .idle → s.lc = .uninit → s.txf = [] → s.handle = none → s.hooked = false → s.master = false →
    (Config.classify sel = none →
      ∃ s1 n t tr, exec (.init sel) s = .next s1 ∧ run n s1 = .next t ∧ t.trace = s.trace ++ tr ∧
        t.pc = .idle ∧ t.lc = .failed ∧ t.regST = .error (.configuration sel) ∧ t.handle = none ∧
        accesses tr = [] ∧ t.ctrl = s.ctrl ∧ t.rdeng = s.rdeng ∧ t.cs = s.cs ∧ t.rxf = s.rxf ∧ t.txf = s.txf ∧
        t.hooked = false ∧ t.master = false) ∧
    (∀ fam, Config.classify sel = some fam → s.mapReply = .failure →
      ∃ s1 n t tr, exec (.init sel) s = .next s1 ∧ run n s1 = .next t ∧ t.trace = s.trace ++ tr ∧
        t.pc = .idle ∧ t.lc = .failed ∧ t.regST = .error (.mapping (Config.base fam)) ∧ t.handle = none ∧
        accesses tr = [] ∧ t.ctrl = s.ctrl ∧ t.rdeng = s.rdeng ∧ t.cs = s.cs ∧ t.rxf = s.rxf ∧ t.txf = s.txf ∧
        t.hooked = false ∧ t.master = false) ∧
    (∀ fam p, Config.classify sel = some fam → s.mapReply = .pointer p → s.hookReply = .fail →
      ∃ s1 n t tr, exec (.init sel) s = .next s1 ∧ run n s1 = .next t ∧ t.trace = s.trace ++ tr ∧
        t.pc = .idle ∧ t.lc = .failed ∧ t.regST = .error (.registration .hook) ∧ t.handle = some p ∧
        accesses tr = [.acc .read .rdeng s.rdeng] ∧ t.ctrl = s.ctrl ∧ t.rdeng = s.rdeng ∧ t.cs = s.cs ∧
        t.rxf = s.rxf ∧ t.txf = s.txf ∧ t.hooked = false ∧ t.master = false) ∧
    (∀ fam p, Config.classify sel = some fam → s.mapReply = .pointer p → s.hookReply = .ok → s.masterReply = .fail →
      ∃ s1 n t tr, exec (.init sel) s = .next s1 ∧ run n s1 = .next t ∧ t.trace = s.trace ++ tr ∧
        t.pc = .idle ∧ t.lc = .failed ∧ t.regST = .error (.registration .master) ∧ t.handle = some p ∧
        workAccesses tr =
          [.acc .read .rdeng s.rdeng, .acc .write .cs 0x11#8, .acc .read .ctrl s.ctrl, .acc .write .ctrl t.ctrl,
            .acc .read .rdeng s.rdeng, .acc .write .rdeng t.rdeng] ++ s.rxf.map (.acc .read .fifo) ∧
        (accesses tr).length = (workAccesses tr).length + (s.rxf.length + 1) ∧
        SoftwareControlled t ∧ t.cs0 = .deasserted ∧ t.txf = [] ∧ t.hooked = true ∧ t.master = false ∧
        (∀ b, b < 8 → b ≠ Config.pSpe → b ≠ Config.pMstr → t.ctrl.getLsbD b = s.ctrl.getLsbD b) ∧
        (∀ b, b < 8 → b ≠ Config.pRen → t.rdeng.getLsbD b = s.rdeng.getLsbD b))

/-- R136: `SHUTDOWN` with `HANDLE` set and `TXF` empty runs to the end: `CS = 0x00`, `REN = 1` with the other bits of
`RDENG` kept, `CTRL`, the FIFOs, `HANDLE` and the registrations unchanged, `CLOSED` with status `Ok`; with `HANDLE` unset
nothing changes but `LC`, `ST`, the `Done` event in the trace, and that the operands held for the command are gone (R31;
DEDUCED, log 21). -/
def Obligations.ShutdownRestoresTheReadEngine : Prop :=
  (∀ (s : State) (ctx : Nat), s.pc = .idle → s.lc ≠ .closed → s.handle.isSome = true → s.txf = [] →
    ∃ s1 n t, exec (.shutdown ctx) s = .next s1 ∧ run n s1 = .next t ∧
      t.pc = .idle ∧ t.lc = .closed ∧ t.regST = .ok ∧ t.cs = 0x00#8 ∧ t.cs0 = .hw ∧
      t.rdeng.getLsbD Config.pRen = true ∧
      (∀ b, b < 8 → b ≠ Config.pRen → t.rdeng.getLsbD b = s.rdeng.getLsbD b) ∧
      t.ctrl = s.ctrl ∧ t.rxf = s.rxf ∧ t.txf = s.txf ∧ t.handle = s.handle ∧ t.hooked = s.hooked ∧
      t.master = s.master ∧ t.mem = s.mem ∧ ¬SoftwareControlled t) ∧
  (∀ (s : State) (ctx : Nat), s.pc = .idle → s.lc ≠ .closed → s.handle = none → s.txf = [] →
    ∃ s1 n, exec (.shutdown ctx) s = .next s1 ∧
      run n s1 = .next { s with
        lc := .closed, regST := .ok, held := {}, trace := s.trace ++ [.done .shutdown (some .ok)] })

/-- R137 (property P2): after `INIT` with status `Ok` and then `SHUTDOWN`, a re-run of the drain's first test finds the
read FIFO empty. It rests on R108: the read engine has no step, so that setting `REN` by itself deposits nothing in the read
FIFO (DEDUCED and unsafe, log 12). -/
def Obligations.DrainAfterShutdownFindsNothing : Prop :=
  ∀ (s : State) (sel : Option String) (fam : Family) (p : Nat) (ctx : Nat),
    s.pc = .idle → s.lc = .uninit → s.txf = [] → Config.classify sel = some fam →
    s.mapReply = .pointer p → s.hookReply = .ok → s.masterReply = .ok →
    ∃ s1 n t u1 m u v, exec (.init sel) s = .next s1 ∧ run n s1 = .next t ∧ t.pc = .idle ∧ t.regST = .ok ∧
      exec (.shutdown ctx) t = .next u1 ∧ run m u1 = .next u ∧ u.pc = .idle ∧ u.lc = .closed ∧ u.rxf = [] ∧
      exec .rdStat u = .next v ∧ v.regS.getLsbD Config.pRfe = true

/-- R151, R152 (property P1); the premise on the schedule, a field of the model's own (DESIGN CHOICE, log 5), stands for
`RESPONSIVE` (R102): from an idle software-controlled core with both FIFOs empty, and a schedule that gives the
shift engine `W + R` turns, `XFER` runs to the end. There are exactly `W + R` exchanges, all with the line asserted; the
accesses but for polls are the assert, the `W + R` round-trips push and pop alternating, and the de-assert; the bytes
sent are `wb[0..W-1]` and then `wb[i]` for each read index `i < W`; `rb[i]` is the answer to exchange `W + i`, and no other
byte of the caller's memory changes; `CTRL` and `RDENG` are untouched and both FIFOs are empty again. -/
def Obligations.XferMovesEveryByte : Prop :=
  ∀ (s : State) (w r : Nat) (wb rb : Nat) (ctx : Nat),
    s.pc = .idle → s.lc = .ready → s.handle.isSome = true → s.iface = .core →
    softwareOwned s.ctrl s.rdeng = true → s.txf = [] → s.rxf = [] →
    (Instr.xfer w r wb rb ctx).wf = true → w + r ≤ s.sched.count .shift →
    ∃ s1 n t tr, ∃ ps : List (Byte × Byte),
      exec (.xfer w r wb rb ctx) s = .next s1 ∧ run n s1 = .next t ∧
      t.pc = .idle ∧ t.lc = .ready ∧ t.txf = [] ∧ t.rxf = [] ∧ t.cs0 = .deasserted ∧
      t.ctrl = s.ctrl ∧ t.rdeng = s.rdeng ∧
      t.trace = s.trace ++ tr ++ [.done .xfer none] ∧
      ps.length = w + r ∧
      exchanges tr = ps.map (fun x => (.asserted, x.1, x.2)) ∧
      workAccesses tr = assertEvent :: (ps.flatMap roundTrip ++ [deassertEvent]) ∧
      (∀ i, i < w → (ps[i]?).map Prod.fst = some (memRead s.mem (wb + i))) ∧
      (∀ i, i < r → i < w → (ps[w + i]?).map Prod.fst = some (memRead s.mem (wb + i))) ∧
      (∀ i, i < r → (ps[w + i]?).map Prod.snd = some (memRead t.mem (rb + i))) ∧
      (∀ a, a < rb ∨ rb + r ≤ a → memRead t.mem a = memRead s.mem a)

/-- R153 (property P4), for every outbound buffer and all lengths: behind the echo double an `XFER` reads back the outbound
bytes, `rb[i] = wb[i]` for every `i` below both `R` and `W` (for `R > W` the bytes past the outbound buffer are the echoes of
draws, R146), whatever the control registers hold: that no enable and no depth is checked behind the double is the model's
reading (DEDUCED, log 9). -/
def Obligations.EchoDoubleReturnsOutboundBytes : Prop :=
  ∀ (s : State) (w r : Nat) (wb rb : Nat) (ctx : Nat),
    s.pc = .idle → s.lc = .ready → s.handle.isSome = true → s.iface = .echoDouble → s.rxf = [] →
    (Instr.xfer w r wb rb ctx).wf = true →
    ∃ s1 n t, exec (.xfer w r wb rb ctx) s = .next s1 ∧ run n s1 = .next t ∧
      t.pc = .idle ∧ t.rxf = [] ∧ t.cs = 0x11#8 ∧
      (∀ i, i < r → i < w → memRead t.mem (rb + i) = memRead s.mem (wb + i)) ∧
      (∀ a, a < rb ∨ rb + r ≤ a → memRead t.mem a = memRead s.mem a)

/-- R102: under `RESPONSIVE` every poll loop of a disciplined run ends: the run stays in the poll state and then pops. -/
def Obligations.ResponsivePollLoopsEnd : Prop :=
  ∀ r : Nat → State, IsRun r → Responsive r → Disciplined (r 0) →
    ((r 0).pc = .xWPoll → ∃ n, (r n).pc = .xWPop ∧ ∀ m, m < n → (r m).pc = .xWPoll) ∧
    ((r 0).pc = .xRPoll → ∃ n, (r n).pc = .xRPop ∧ ∀ m, m < n → (r m).pc = .xRPoll)

/-- R102, R155, R179 (b), (c): hang and stuck. A poll loop whose byte may be sent goes on as long as the shift engine gets no
turn: every event is a sample of `STAT`, with no error, no diagnostic, no timeout, the line as it was, the byte still
waiting. The machine is stuck, no agent having a step, exactly in a poll micro-state with no byte received and the shift
step not enabled (that this outcome is the fault `stuck`, and that a received byte excludes it, is the model's reading,
log 23). -/
def Obligations.UnservedPollLoopHangs : Prop :=
  (∀ (n : Nat) (s : State), (s.pc = .xWPoll ∨ s.pc = .xRPoll) → s.handle.isSome = true → s.rxf = [] →
    s.sched = List.replicate n .seq → shiftEnabled s = true →
    ∃ t tr, run n s = .next t ∧ t.pc = s.pc ∧ t.cs0 = s.cs0 ∧ t.txf = s.txf ∧ t.rxf = [] ∧ t.regST = s.regST ∧
      t.trace = s.trace ++ tr ∧ tr.length = n ∧ ∀ e ∈ tr, ∃ b, e = .acc .read .stat b) ∧
  (∀ (s : State) (f : Fault), step s = .fault f ↔
    (s.pc = .xWPoll ∨ s.pc = .xRPoll) ∧ s.rxf = [] ∧ shiftEnabled s = false)

/-! ### Invariants of every step -/

/-- R21, R22, R34: every step keeps the caller's memory canonical and both FIFOs of the core within their depth. -/
def Obligations.StepKeepsStateWellKept : Prop :=
  ∀ s t : State, WellKept s → step s = .next t → WellKept t

/-- The three invariants `WellKept`, `Disciplined` and `Bracketed` hold at reset, where nothing is presented (that reset's FIFOs
and memory are empty and nothing is presented is the model's choice, log 1, 3 and 6). -/
def Obligations.ResetMeetsTheInvariants : Prop :=
  WellKept State.reset ∧ Disciplined State.reset ∧ Bracketed State.reset

/-- R150, R205 to R211, R28: every step of a run of commands keeps the discipline: at most one byte in flight, a pop only
with a byte there, a push only with both FIFOs empty, the line asserted throughout a transaction's round-trips, software
control from the end of `INIT` to the end of `SHUTDOWN`, the lifecycle in order. -/
def Obligations.StepKeepsDiscipline : Prop :=
  ∀ s t : State, Disciplined s → step s = .next t → Disciplined t

/-- D25 and the corner cases of R84, R85, R87, R101: in a disciplined state the running command is never refused: every
step away from `IDLE` answers a next state. -/
def Obligations.RunningCommandIsNeverRefused : Prop :=
  ∀ s : State, Disciplined s → s.pc ≠ .idle → ∃ t, step s = .next t

/-- R154 (property P5): every step of a run of commands keeps the bracketing of the trace: no second assert came without a
de-assert before it, and an assert is open exactly inside a transaction. Hence in the trace of any run of commands from an
idle state with an empty trace a de-assert stands between two asserts. -/
def Obligations.AssertsHaveDeassertBetween : Prop :=
  (∀ s t : State, Bracketed s → step s = .next t → Bracketed t) ∧
  ∀ (n : Nat) (s t : State) (a b c : List Event), s.pc = .idle → CommandsOnly s → s.trace = [] →
    run n s = .next t → t.trace = a ++ assertEvent :: (b ++ assertEvent :: c) → deassertEvent ∈ b

/-- R21, R22, R106: conservation and order. In every run behind the core, the bytes popped and then the bytes in `RXF` are
the bytes that were in `RXF` and then those received; the bytes that were in `TXF` and then those pushed are the bytes
sent and then those in `TXF`. -/
def Obligations.FifosConserveBytesInOrder : Prop :=
  ∀ (n : Nat) (s t : State), s.iface = .core → run n s = .next t →
    ∃ tr, t.trace = s.trace ++ tr ∧
      poppedBytes tr ++ t.rxf = s.rxf ++ receivedBytes tr ∧
      s.txf ++ pushedBytes tr = sentBytes tr ++ t.txf

/-- R27: `HANDLE` is never unset afterwards. -/
def Obligations.HandleIsNeverUnset : Prop :=
  ∀ s t : State, s.handle.isSome = true → step s = .next t → t.handle.isSome = true

/-- R28: in a disciplined run the lifecycle only moves forward: `UNINIT` to `READY`, `FAILED` or `CLOSED`, `READY` and
`FAILED` to `CLOSED`. -/
def Obligations.LifecycleMovesForward : Prop :=
  ∀ s t : State, Disciplined s → step s = .next t →
    t.lc = s.lc ∨ s.lc = .uninit ∨ (s.lc = .ready ∧ t.lc = .closed) ∨ (s.lc = .failed ∧ t.lc = .closed)

/-- R12, R81: behind the core no step ever clears `SPE` or `MSTR`. -/
def Obligations.EnableBitsAreNeverCleared : Prop :=
  ∀ s t : State, s.iface = .core → step s = .next t →
    (s.ctrl.getLsbD Config.pSpe = true → t.ctrl.getLsbD Config.pSpe = true) ∧
    (s.ctrl.getLsbD Config.pMstr = true → t.ctrl.getLsbD Config.pMstr = true)

/-- R151, R210: while a transaction runs no step changes `CTRL`, `RDENG`, `HANDLE`, the registrations or `ST`, and the only
byte of the caller's memory that can change is `rb[I]` at `X_RPOP`. -/
def Obligations.TransactionLeavesControlAlone : Prop :=
  ∀ s t : State, isXferState s.pc = true → step s = .next t →
    t.ctrl = s.ctrl ∧ t.rdeng = s.rdeng ∧ t.handle = s.handle ∧ t.lc = s.lc ∧ t.hooked = s.hooked ∧
    t.master = s.master ∧ t.regST = s.regST ∧
    ∀ a, (s.pc = .xRPop → a ≠ s.held.rbBase + s.regI) → memRead t.mem a = memRead s.mem a
end

