-- ==== Sys2Proof/Laws/State.lean ====
section
/-! SUPPORT. What each named update of the state does to each field: one lemma per field per update. The updates that
choose by a match (`deviceSees`, `exchange`, `nextAgent`, `askMap`, `askRegister`, `outboundByte`) have one lemma that
says everything they can change, and one lemma per field they leave alone. -/

namespace Sys2Proof.Machine

/-! ### `emit` -/

@[simp] theorem emit_pc (s : State) (e : Event) : (s.emit e).pc = s.pc := rfl
@[simp] theorem emit_ctrl (s : State) (e : Event) : (s.emit e).ctrl = s.ctrl := rfl
@[simp] theorem emit_rdeng (s : State) (e : Event) : (s.emit e).rdeng = s.rdeng := rfl
@[simp] theorem emit_cs (s : State) (e : Event) : (s.emit e).cs = s.cs := rfl
@[simp] theorem emit_rxf (s : State) (e : Event) : (s.emit e).rxf = s.rxf := rfl
@[simp] theorem emit_txf (s : State) (e : Event) : (s.emit e).txf = s.txf := rfl
@[simp] theorem emit_dev (s : State) (e : Event) : (s.emit e).dev = s.dev := rfl
@[simp] theorem emit_iface (s : State) (e : Event) : (s.emit e).iface = s.iface := rfl
@[simp] theorem emit_handle (s : State) (e : Event) : (s.emit e).handle = s.handle := rfl
@[simp] theorem emit_lc (s : State) (e : Event) : (s.emit e).lc = s.lc := rfl
@[simp] theorem emit_hooked (s : State) (e : Event) : (s.emit e).hooked = s.hooked := rfl
@[simp] theorem emit_master (s : State) (e : Event) : (s.emit e).master = s.master := rfl
@[simp] theorem emit_regT (s : State) (e : Event) : (s.emit e).regT = s.regT := rfl
@[simp] theorem emit_regS (s : State) (e : Event) : (s.emit e).regS = s.regS := rfl
@[simp] theorem emit_regI (s : State) (e : Event) : (s.emit e).regI = s.regI := rfl
@[simp] theorem emit_regW (s : State) (e : Event) : (s.emit e).regW = s.regW := rfl
@[simp] theorem emit_regR (s : State) (e : Event) : (s.emit e).regR = s.regR := rfl
@[simp] theorem emit_regST (s : State) (e : Event) : (s.emit e).regST = s.regST := rfl
@[simp] theorem emit_held (s : State) (e : Event) : (s.emit e).held = s.held := rfl
@[simp] theorem emit_mem (s : State) (e : Event) : (s.emit e).mem = s.mem := rfl
@[simp] theorem emit_requests (s : State) (e : Event) : (s.emit e).requests = s.requests := rfl
@[simp] theorem emit_mapReply (s : State) (e : Event) : (s.emit e).mapReply = s.mapReply := rfl
@[simp] theorem emit_hookReply (s : State) (e : Event) : (s.emit e).hookReply = s.hookReply := rfl
@[simp] theorem emit_masterReply (s : State) (e : Event) : (s.emit e).masterReply = s.masterReply := rfl
@[simp] theorem emit_sched (s : State) (e : Event) : (s.emit e).sched = s.sched := rfl
@[simp] theorem emit_draws (s : State) (e : Event) : (s.emit e).draws = s.draws := rfl
@[simp] theorem emit_trace (s : State) (e : Event) : (s.emit e).trace = s.trace ++ [e] := rfl

/-! ### `drawn` -/

@[simp] theorem drawn_pc (s : State) : (s.drawn).pc = s.pc := rfl
@[simp] theorem drawn_ctrl (s : State) : (s.drawn).ctrl = s.ctrl := rfl
@[simp] theorem drawn_rdeng (s : State) : (s.drawn).rdeng = s.rdeng := rfl
@[simp] theorem drawn_cs (s : State) : (s.drawn).cs = s.cs := rfl
@[simp] theorem drawn_rxf (s : State) : (s.drawn).rxf = s.rxf := rfl
@[simp] theorem drawn_txf (s : State) : (s.drawn).txf = s.txf := rfl
@[simp] theorem drawn_dev (s : State) : (s.drawn).dev = s.dev := rfl
@[simp] theorem drawn_iface (s : State) : (s.drawn).iface = s.iface := rfl
@[simp] theorem drawn_handle (s : State) : (s.drawn).handle = s.handle := rfl
@[simp] theorem drawn_lc (s : State) : (s.drawn).lc = s.lc := rfl
@[simp] theorem drawn_hooked (s : State) : (s.drawn).hooked = s.hooked := rfl
@[simp] theorem drawn_master (s : State) : (s.drawn).master = s.master := rfl
@[simp] theorem drawn_regT (s : State) : (s.drawn).regT = s.regT := rfl
@[simp] theorem drawn_regS (s : State) : (s.drawn).regS = s.regS := rfl
@[simp] theorem drawn_regI (s : State) : (s.drawn).regI = s.regI := rfl
@[simp] theorem drawn_regW (s : State) : (s.drawn).regW = s.regW := rfl
@[simp] theorem drawn_regR (s : State) : (s.drawn).regR = s.regR := rfl
@[simp] theorem drawn_regST (s : State) : (s.drawn).regST = s.regST := rfl
@[simp] theorem drawn_held (s : State) : (s.drawn).held = s.held := rfl
@[simp] theorem drawn_mem (s : State) : (s.drawn).mem = s.mem := rfl
@[simp] theorem drawn_requests (s : State) : (s.drawn).requests = s.requests := rfl
@[simp] theorem drawn_mapReply (s : State) : (s.drawn).mapReply = s.mapReply := rfl
@[simp] theorem drawn_hookReply (s : State) : (s.drawn).hookReply = s.hookReply := rfl
@[simp] theorem drawn_masterReply (s : State) : (s.drawn).masterReply = s.masterReply := rfl
@[simp] theorem drawn_sched (s : State) : (s.drawn).sched = s.sched := rfl
@[simp] theorem drawn_draws (s : State) : (s.drawn).draws = s.draws + 1 := rfl
@[simp] theorem drawn_trace (s : State) : (s.drawn).trace = s.trace := rfl

/-! ### `goto` -/

@[simp] theorem goto_pc (s : State) (p : MicroState) : (s.goto p).pc = p := rfl
@[simp] theorem goto_ctrl (s : State) (p : MicroState) : (s.goto p).ctrl = s.ctrl := rfl
@[simp] theorem goto_rdeng (s : State) (p : MicroState) : (s.goto p).rdeng = s.rdeng := rfl
@[simp] theorem goto_cs (s : State) (p : MicroState) : (s.goto p).cs = s.cs := rfl
@[simp] theorem goto_rxf (s : State) (p : MicroState) : (s.goto p).rxf = s.rxf := rfl
@[simp] theorem goto_txf (s : State) (p : MicroState) : (s.goto p).txf = s.txf := rfl
@[simp] theorem goto_dev (s : State) (p : MicroState) : (s.goto p).dev = s.dev := rfl
@[simp] theorem goto_iface (s : State) (p : MicroState) : (s.goto p).iface = s.iface := rfl
@[simp] theorem goto_handle (s : State) (p : MicroState) : (s.goto p).handle = s.handle := rfl
@[simp] theorem goto_lc (s : State) (p : MicroState) : (s.goto p).lc = s.lc := rfl
@[simp] theorem goto_hooked (s : State) (p : MicroState) : (s.goto p).hooked = s.hooked := rfl
@[simp] theorem goto_master (s : State) (p : MicroState) : (s.goto p).master = s.master := rfl
@[simp] theorem goto_regT (s : State) (p : MicroState) : (s.goto p).regT = s.regT := rfl
@[simp] theorem goto_regS (s : State) (p : MicroState) : (s.goto p).regS = s.regS := rfl
@[simp] theorem goto_regI (s : State) (p : MicroState) : (s.goto p).regI = s.regI := rfl
@[simp] theorem goto_regW (s : State) (p : MicroState) : (s.goto p).regW = s.regW := rfl
@[simp] theorem goto_regR (s : State) (p : MicroState) : (s.goto p).regR = s.regR := rfl
@[simp] theorem goto_regST (s : State) (p : MicroState) : (s.goto p).regST = s.regST := rfl
@[simp] theorem goto_held (s : State) (p : MicroState) : (s.goto p).held = s.held := rfl
@[simp] theorem goto_mem (s : State) (p : MicroState) : (s.goto p).mem = s.mem := rfl
@[simp] theorem goto_requests (s : State) (p : MicroState) : (s.goto p).requests = s.requests := rfl
@[simp] theorem goto_mapReply (s : State) (p : MicroState) : (s.goto p).mapReply = s.mapReply := rfl
@[simp] theorem goto_hookReply (s : State) (p : MicroState) : (s.goto p).hookReply = s.hookReply := rfl
@[simp] theorem goto_masterReply (s : State) (p : MicroState) : (s.goto p).masterReply = s.masterReply := rfl
@[simp] theorem goto_sched (s : State) (p : MicroState) : (s.goto p).sched = s.sched := rfl
@[simp] theorem goto_draws (s : State) (p : MicroState) : (s.goto p).draws = s.draws := rfl
@[simp] theorem goto_trace (s : State) (p : MicroState) : (s.goto p).trace = s.trace := rfl

/-! ### `readIntoT` -/

@[simp] theorem readIntoT_pc (s : State) (r : Reg) (v : Byte) : (readIntoT s r v).pc = s.pc := rfl
@[simp] theorem readIntoT_ctrl (s : State) (r : Reg) (v : Byte) : (readIntoT s r v).ctrl = s.ctrl := rfl
@[simp] theorem readIntoT_rdeng (s : State) (r : Reg) (v : Byte) : (readIntoT s r v).rdeng = s.rdeng := rfl
@[simp] theorem readIntoT_cs (s : State) (r : Reg) (v : Byte) : (readIntoT s r v).cs = s.cs := rfl
@[simp] theorem readIntoT_rxf (s : State) (r : Reg) (v : Byte) : (readIntoT s r v).rxf = s.rxf := rfl
@[simp] theorem readIntoT_txf (s : State) (r : Reg) (v : Byte) : (readIntoT s r v).txf = s.txf := rfl
@[simp] theorem readIntoT_dev (s : State) (r : Reg) (v : Byte) : (readIntoT s r v).dev = s.dev := rfl
@[simp] theorem readIntoT_iface (s : State) (r : Reg) (v : Byte) : (readIntoT s r v).iface = s.iface := rfl
@[simp] theorem readIntoT_handle (s : State) (r : Reg) (v : Byte) : (readIntoT s r v).handle = s.handle := rfl
@[simp] theorem readIntoT_lc (s : State) (r : Reg) (v : Byte) : (readIntoT s r v).lc = s.lc := rfl
@[simp] theorem readIntoT_hooked (s : State) (r : Reg) (v : Byte) : (readIntoT s r v).hooked = s.hooked := rfl
@[simp] theorem readIntoT_master (s : State) (r : Reg) (v : Byte) : (readIntoT s r v).master = s.master := rfl
@[simp] theorem readIntoT_regT (s : State) (r : Reg) (v : Byte) : (readIntoT s r v).regT = v := rfl
@[simp] theorem readIntoT_regS (s : State) (r : Reg) (v : Byte) : (readIntoT s r v).regS = s.regS := rfl
@[simp] theorem readIntoT_regI (s : State) (r : Reg) (v : Byte) : (readIntoT s r v).regI = s.regI := rfl
@[simp] theorem readIntoT_regW (s : State) (r : Reg) (v : Byte) : (readIntoT s r v).regW = s.regW := rfl
@[simp] theorem readIntoT_regR (s : State) (r : Reg) (v : Byte) : (readIntoT s r v).regR = s.regR := rfl
@[simp] theorem readIntoT_regST (s : State) (r : Reg) (v : Byte) : (readIntoT s r v).regST = s.regST := rfl
@[simp] theorem readIntoT_held (s : State) (r : Reg) (v : Byte) : (readIntoT s r v).held = s.held := rfl
@[simp] theorem readIntoT_mem (s : State) (r : Reg) (v : Byte) : (readIntoT s r v).mem = s.mem := rfl
@[simp] theorem readIntoT_requests (s : State) (r : Reg) (v : Byte) : (readIntoT s r v).requests = s.requests := rfl
@[simp] theorem readIntoT_mapReply (s : State) (r : Reg) (v : Byte) : (readIntoT s r v).mapReply = s.mapReply := rfl
@[simp] theorem readIntoT_hookReply (s : State) (r : Reg) (v : Byte) : (readIntoT s r v).hookReply = s.hookReply := rfl
@[simp] theorem readIntoT_masterReply (s : State) (r : Reg) (v : Byte) : (readIntoT s r v).masterReply = s.masterReply := rfl
@[simp] theorem readIntoT_sched (s : State) (r : Reg) (v : Byte) : (readIntoT s r v).sched = s.sched := rfl
@[simp] theorem readIntoT_draws (s : State) (r : Reg) (v : Byte) : (readIntoT s r v).draws = s.draws := rfl
@[simp] theorem readIntoT_trace (s : State) (r : Reg) (v : Byte) : (readIntoT s r v).trace = s.trace ++ [.acc .read r v] := rfl

/-! ### `endCommand` -/

@[simp] theorem endCommand_pc (s : State) (c : Command) (st : Option Status) : (endCommand s c st).pc = .idle := rfl
@[simp] theorem endCommand_ctrl (s : State) (c : Command) (st : Option Status) : (endCommand s c st).ctrl = s.ctrl := rfl
@[simp] theorem endCommand_rdeng (s : State) (c : Command) (st : Option Status) : (endCommand s c st).rdeng = s.rdeng := rfl
@[simp] theorem endCommand_cs (s : State) (c : Command) (st : Option Status) : (endCommand s c st).cs = s.cs := rfl
@[simp] theorem endCommand_rxf (s : State) (c : Command) (st : Option Status) : (endCommand s c st).rxf = s.rxf := rfl
@[simp] theorem endCommand_txf (s : State) (c : Command) (st : Option Status) : (endCommand s c st).txf = s.txf := rfl
@[simp] theorem endCommand_dev (s : State) (c : Command) (st : Option Status) : (endCommand s c st).dev = s.dev := rfl
@[simp] theorem endCommand_iface (s : State) (c : Command) (st : Option Status) : (endCommand s c st).iface = s.iface := rfl
@[simp] theorem endCommand_handle (s : State) (c : Command) (st : Option Status) : (endCommand s c st).handle = s.handle := rfl
@[simp] theorem endCommand_lc (s : State) (c : Command) (st : Option Status) : (endCommand s c st).lc = s.lc := rfl
@[simp] theorem endCommand_hooked (s : State) (c : Command) (st : Option Status) : (endCommand s c st).hooked = s.hooked := rfl
@[simp] theorem endCommand_master (s : State) (c : Command) (st : Option Status) : (endCommand s c st).master = s.master := rfl
@[simp] theorem endCommand_regT (s : State) (c : Command) (st : Option Status) : (endCommand s c st).regT = s.regT := rfl
@[simp] theorem endCommand_regS (s : State) (c : Command) (st : Option Status) : (endCommand s c st).regS = s.regS := rfl
@[simp] theorem endCommand_regI (s : State) (c : Command) (st : Option Status) : (endCommand s c st).regI = s.regI := rfl
@[simp] theorem endCommand_regW (s : State) (c : Command) (st : Option Status) : (endCommand s c st).regW = s.regW := rfl
@[simp] theorem endCommand_regR (s : State) (c : Command) (st : Option Status) : (endCommand s c st).regR = s.regR := rfl
@[simp] theorem endCommand_regST (s : State) (c : Command) (st : Option Status) : (endCommand s c st).regST = s.regST := rfl
@[simp] theorem endCommand_held (s : State) (c : Command) (st : Option Status) : (endCommand s c st).held = {} := rfl
@[simp] theorem endCommand_mem (s : State) (c : Command) (st : Option Status) : (endCommand s c st).mem = s.mem := rfl
@[simp] theorem endCommand_requests (s : State) (c : Command) (st : Option Status) : (endCommand s c st).requests = s.requests := rfl
@[simp] theorem endCommand_mapReply (s : State) (c : Command) (st : Option Status) : (endCommand s c st).mapReply = s.mapReply := rfl
@[simp] theorem endCommand_hookReply (s : State) (c : Command) (st : Option Status) : (endCommand s c st).hookReply = s.hookReply := rfl
@[simp] theorem endCommand_masterReply (s : State) (c : Command) (st : Option Status) : (endCommand s c st).masterReply = s.masterReply := rfl
@[simp] theorem endCommand_sched (s : State) (c : Command) (st : Option Status) : (endCommand s c st).sched = s.sched := rfl
@[simp] theorem endCommand_draws (s : State) (c : Command) (st : Option Status) : (endCommand s c st).draws = s.draws := rfl
@[simp] theorem endCommand_trace (s : State) (c : Command) (st : Option Status) : (endCommand s c st).trace = s.trace ++ [.done c st] := rfl

/-! ### `raiseError` -/

@[simp] theorem raiseError_pc (s : State) (e : InitError) : (raiseError s e).pc = .idle := rfl
@[simp] theorem raiseError_ctrl (s : State) (e : InitError) : (raiseError s e).ctrl = s.ctrl := rfl
@[simp] theorem raiseError_rdeng (s : State) (e : InitError) : (raiseError s e).rdeng = s.rdeng := rfl
@[simp] theorem raiseError_cs (s : State) (e : InitError) : (raiseError s e).cs = s.cs := rfl
@[simp] theorem raiseError_rxf (s : State) (e : InitError) : (raiseError s e).rxf = s.rxf := rfl
@[simp] theorem raiseError_txf (s : State) (e : InitError) : (raiseError s e).txf = s.txf := rfl
@[simp] theorem raiseError_dev (s : State) (e : InitError) : (raiseError s e).dev = s.dev := rfl
@[simp] theorem raiseError_iface (s : State) (e : InitError) : (raiseError s e).iface = s.iface := rfl
@[simp] theorem raiseError_handle (s : State) (e : InitError) : (raiseError s e).handle = s.handle := rfl
@[simp] theorem raiseError_lc (s : State) (e : InitError) : (raiseError s e).lc = .failed := rfl
@[simp] theorem raiseError_hooked (s : State) (e : InitError) : (raiseError s e).hooked = s.hooked := rfl
@[simp] theorem raiseError_master (s : State) (e : InitError) : (raiseError s e).master = s.master := rfl
@[simp] theorem raiseError_regT (s : State) (e : InitError) : (raiseError s e).regT = s.regT := rfl
@[simp] theorem raiseError_regS (s : State) (e : InitError) : (raiseError s e).regS = s.regS := rfl
@[simp] theorem raiseError_regI (s : State) (e : InitError) : (raiseError s e).regI = s.regI := rfl
@[simp] theorem raiseError_regW (s : State) (e : InitError) : (raiseError s e).regW = s.regW := rfl
@[simp] theorem raiseError_regR (s : State) (e : InitError) : (raiseError s e).regR = s.regR := rfl
@[simp] theorem raiseError_regST (s : State) (e : InitError) : (raiseError s e).regST = .error e := rfl
@[simp] theorem raiseError_held (s : State) (e : InitError) : (raiseError s e).held = {} := rfl
@[simp] theorem raiseError_mem (s : State) (e : InitError) : (raiseError s e).mem = s.mem := rfl
@[simp] theorem raiseError_requests (s : State) (e : InitError) : (raiseError s e).requests = s.requests := rfl
@[simp] theorem raiseError_mapReply (s : State) (e : InitError) : (raiseError s e).mapReply = s.mapReply := rfl
@[simp] theorem raiseError_hookReply (s : State) (e : InitError) : (raiseError s e).hookReply = s.hookReply := rfl
@[simp] theorem raiseError_masterReply (s : State) (e : InitError) : (raiseError s e).masterReply = s.masterReply := rfl
@[simp] theorem raiseError_sched (s : State) (e : InitError) : (raiseError s e).sched = s.sched := rfl
@[simp] theorem raiseError_draws (s : State) (e : InitError) : (raiseError s e).draws = s.draws := rfl
@[simp] theorem raiseError_trace (s : State) (e : InitError) : (raiseError s e).trace = s.trace ++ [.diag .error (diagClassOf e)] ++ [.done .init (some (.error e))] := rfl

/-! ### `endShutdown` -/

@[simp] theorem endShutdown_pc (s : State) : (endShutdown s).pc = .idle := rfl
@[simp] theorem endShutdown_ctrl (s : State) : (endShutdown s).ctrl = s.ctrl := rfl
@[simp] theorem endShutdown_rdeng (s : State) : (endShutdown s).rdeng = s.rdeng := rfl
@[simp] theorem endShutdown_cs (s : State) : (endShutdown s).cs = s.cs := rfl
@[simp] theorem endShutdown_rxf (s : State) : (endShutdown s).rxf = s.rxf := rfl
@[simp] theorem endShutdown_txf (s : State) : (endShutdown s).txf = s.txf := rfl
@[simp] theorem endShutdown_dev (s : State) : (endShutdown s).dev = s.dev := rfl
@[simp] theorem endShutdown_iface (s : State) : (endShutdown s).iface = s.iface := rfl
@[simp] theorem endShutdown_handle (s : State) : (endShutdown s).handle = s.handle := rfl
@[simp] theorem endShutdown_lc (s : State) : (endShutdown s).lc = .closed := rfl
@[simp] theorem endShutdown_hooked (s : State) : (endShutdown s).hooked = s.hooked := rfl
@[simp] theorem endShutdown_master (s : State) : (endShutdown s).master = s.master := rfl
@[simp] theorem endShutdown_regT (s : State) : (endShutdown s).regT = s.regT := rfl
@[simp] theorem endShutdown_regS (s : State) : (endShutdown s).regS = s.regS := rfl
@[simp] theorem endShutdown_regI (s : State) : (endShutdown s).regI = s.regI := rfl
@[simp] theorem endShutdown_regW (s : State) : (endShutdown s).regW = s.regW := rfl
@[simp] theorem endShutdown_regR (s : State) : (endShutdown s).regR = s.regR := rfl
@[simp] theorem endShutdown_regST (s : State) : (endShutdown s).regST = .ok := rfl
@[simp] theorem endShutdown_held (s : State) : (endShutdown s).held = {} := rfl
@[simp] theorem endShutdown_mem (s : State) : (endShutdown s).mem = s.mem := rfl
@[simp] theorem endShutdown_requests (s : State) : (endShutdown s).requests = s.requests := rfl
@[simp] theorem endShutdown_mapReply (s : State) : (endShutdown s).mapReply = s.mapReply := rfl
@[simp] theorem endShutdown_hookReply (s : State) : (endShutdown s).hookReply = s.hookReply := rfl
@[simp] theorem endShutdown_masterReply (s : State) : (endShutdown s).masterReply = s.masterReply := rfl
@[simp] theorem endShutdown_sched (s : State) : (endShutdown s).sched = s.sched := rfl
@[simp] theorem endShutdown_draws (s : State) : (endShutdown s).draws = s.draws := rfl
@[simp] theorem endShutdown_trace (s : State) : (endShutdown s).trace = s.trace ++ [.done .shutdown (some .ok)] := rfl

/-! ### `countUp` -/

@[simp] theorem countUp_pc (s : State) : (countUp s).pc = s.pc := rfl
@[simp] theorem countUp_ctrl (s : State) : (countUp s).ctrl = s.ctrl := rfl
@[simp] theorem countUp_rdeng (s : State) : (countUp s).rdeng = s.rdeng := rfl
@[simp] theorem countUp_cs (s : State) : (countUp s).cs = s.cs := rfl
@[simp] theorem countUp_rxf (s : State) : (countUp s).rxf = s.rxf := rfl
@[simp] theorem countUp_txf (s : State) : (countUp s).txf = s.txf := rfl
@[simp] theorem countUp_dev (s : State) : (countUp s).dev = s.dev := rfl
@[simp] theorem countUp_iface (s : State) : (countUp s).iface = s.iface := rfl
@[simp] theorem countUp_handle (s : State) : (countUp s).handle = s.handle := rfl
@[simp] theorem countUp_lc (s : State) : (countUp s).lc = s.lc := rfl
@[simp] theorem countUp_hooked (s : State) : (countUp s).hooked = s.hooked := rfl
@[simp] theorem countUp_master (s : State) : (countUp s).master = s.master := rfl
@[simp] theorem countUp_regT (s : State) : (countUp s).regT = s.regT := rfl
@[simp] theorem countUp_regS (s : State) : (countUp s).regS = s.regS := rfl
@[simp] theorem countUp_regI (s : State) : (countUp s).regI = s.regI + 1 := rfl
@[simp] theorem countUp_regW (s : State) : (countUp s).regW = s.regW := rfl
@[simp] theorem countUp_regR (s : State) : (countUp s).regR = s.regR := rfl
@[simp] theorem countUp_regST (s : State) : (countUp s).regST = s.regST := rfl
@[simp] theorem countUp_held (s : State) : (countUp s).held = s.held := rfl
@[simp] theorem countUp_mem (s : State) : (countUp s).mem = s.mem := rfl
@[simp] theorem countUp_requests (s : State) : (countUp s).requests = s.requests := rfl
@[simp] theorem countUp_mapReply (s : State) : (countUp s).mapReply = s.mapReply := rfl
@[simp] theorem countUp_hookReply (s : State) : (countUp s).hookReply = s.hookReply := rfl
@[simp] theorem countUp_masterReply (s : State) : (countUp s).masterReply = s.masterReply := rfl
@[simp] theorem countUp_sched (s : State) : (countUp s).sched = s.sched := rfl
@[simp] theorem countUp_draws (s : State) : (countUp s).draws = s.draws := rfl
@[simp] theorem countUp_trace (s : State) : (countUp s).trace = s.trace := rfl

/-! ### `storeInbound` -/

@[simp] theorem storeInbound_pc (s : State) : (storeInbound s).pc = s.pc := rfl
@[simp] theorem storeInbound_ctrl (s : State) : (storeInbound s).ctrl = s.ctrl := rfl
@[simp] theorem storeInbound_rdeng (s : State) : (storeInbound s).rdeng = s.rdeng := rfl
@[simp] theorem storeInbound_cs (s : State) : (storeInbound s).cs = s.cs := rfl
@[simp] theorem storeInbound_rxf (s : State) : (storeInbound s).rxf = s.rxf := rfl
@[simp] theorem storeInbound_txf (s : State) : (storeInbound s).txf = s.txf := rfl
@[simp] theorem storeInbound_dev (s : State) : (storeInbound s).dev = s.dev := rfl
@[simp] theorem storeInbound_iface (s : State) : (storeInbound s).iface = s.iface := rfl
@[simp] theorem storeInbound_handle (s : State) : (storeInbound s).handle = s.handle := rfl
@[simp] theorem storeInbound_lc (s : State) : (storeInbound s).lc = s.lc := rfl
@[simp] theorem storeInbound_hooked (s : State) : (storeInbound s).hooked = s.hooked := rfl
@[simp] theorem storeInbound_master (s : State) : (storeInbound s).master = s.master := rfl
@[simp] theorem storeInbound_regT (s : State) : (storeInbound s).regT = s.regT := rfl
@[simp] theorem storeInbound_regS (s : State) : (storeInbound s).regS = s.regS := rfl
@[simp] theorem storeInbound_regI (s : State) : (storeInbound s).regI = s.regI := rfl
@[simp] theorem storeInbound_regW (s : State) : (storeInbound s).regW = s.regW := rfl
@[simp] theorem storeInbound_regR (s : State) : (storeInbound s).regR = s.regR := rfl
@[simp] theorem storeInbound_regST (s : State) : (storeInbound s).regST = s.regST := rfl
@[simp] theorem storeInbound_held (s : State) : (storeInbound s).held = s.held := rfl
@[simp] theorem storeInbound_mem (s : State) : (storeInbound s).mem = memWrite s.mem (s.held.rbBase + s.regI) s.regT := rfl
@[simp] theorem storeInbound_requests (s : State) : (storeInbound s).requests = s.requests := rfl
@[simp] theorem storeInbound_mapReply (s : State) : (storeInbound s).mapReply = s.mapReply := rfl
@[simp] theorem storeInbound_hookReply (s : State) : (storeInbound s).hookReply = s.hookReply := rfl
@[simp] theorem storeInbound_masterReply (s : State) : (storeInbound s).masterReply = s.masterReply := rfl
@[simp] theorem storeInbound_sched (s : State) : (storeInbound s).sched = s.sched := rfl
@[simp] theorem storeInbound_draws (s : State) : (storeInbound s).draws = s.draws := rfl
@[simp] theorem storeInbound_trace (s : State) : (storeInbound s).trace = s.trace := rfl

/-! ### `draw` -/

@[simp] theorem draw_state_pc (s : State) : ((draw s).2).pc = s.pc := rfl
@[simp] theorem draw_state_ctrl (s : State) : ((draw s).2).ctrl = s.ctrl := rfl
@[simp] theorem draw_state_rdeng (s : State) : ((draw s).2).rdeng = s.rdeng := rfl
@[simp] theorem draw_state_cs (s : State) : ((draw s).2).cs = s.cs := rfl
@[simp] theorem draw_state_rxf (s : State) : ((draw s).2).rxf = s.rxf := rfl
@[simp] theorem draw_state_txf (s : State) : ((draw s).2).txf = s.txf := rfl
@[simp] theorem draw_state_dev (s : State) : ((draw s).2).dev = s.dev := rfl
@[simp] theorem draw_state_iface (s : State) : ((draw s).2).iface = s.iface := rfl
@[simp] theorem draw_state_handle (s : State) : ((draw s).2).handle = s.handle := rfl
@[simp] theorem draw_state_lc (s : State) : ((draw s).2).lc = s.lc := rfl
@[simp] theorem draw_state_hooked (s : State) : ((draw s).2).hooked = s.hooked := rfl
@[simp] theorem draw_state_master (s : State) : ((draw s).2).master = s.master := rfl
@[simp] theorem draw_state_regT (s : State) : ((draw s).2).regT = s.regT := rfl
@[simp] theorem draw_state_regS (s : State) : ((draw s).2).regS = s.regS := rfl
@[simp] theorem draw_state_regI (s : State) : ((draw s).2).regI = s.regI := rfl
@[simp] theorem draw_state_regW (s : State) : ((draw s).2).regW = s.regW := rfl
@[simp] theorem draw_state_regR (s : State) : ((draw s).2).regR = s.regR := rfl
@[simp] theorem draw_state_regST (s : State) : ((draw s).2).regST = s.regST := rfl
@[simp] theorem draw_state_held (s : State) : ((draw s).2).held = s.held := rfl
@[simp] theorem draw_state_mem (s : State) : ((draw s).2).mem = s.mem := rfl
@[simp] theorem draw_state_requests (s : State) : ((draw s).2).requests = s.requests := rfl
@[simp] theorem draw_state_mapReply (s : State) : ((draw s).2).mapReply = s.mapReply := rfl
@[simp] theorem draw_state_hookReply (s : State) : ((draw s).2).hookReply = s.hookReply := rfl
@[simp] theorem draw_state_masterReply (s : State) : ((draw s).2).masterReply = s.masterReply := rfl
@[simp] theorem draw_state_sched (s : State) : ((draw s).2).sched = s.sched := rfl
@[simp] theorem draw_state_draws (s : State) : ((draw s).2).draws = s.draws + 1 := rfl
@[simp] theorem draw_state_trace (s : State) : ((draw s).2).trace = s.trace := rfl

/-! ### Everything the updates by match can change -/

/-- `deviceSees` changes the device alone. -/
theorem deviceSees_eq (s : State) (e : DevEvent) : ∃ d, deviceSees s e = { s with dev := d } := by
  unfold deviceSees
  split <;> exact ⟨_, rfl⟩

/-- `exchange` changes the device and the number of draws alone. -/
theorem exchange_eq (s : State) (l : Cs0) (b : Byte) :
    ∃ d n, (exchange s l b).2 = { s with dev := d, draws := n } := by
  unfold exchange deviceSees draw State.drawn
  split
  · split <;> exact ⟨_, _, rfl⟩
  · split <;> exact ⟨_, _, rfl⟩
  · split <;> exact ⟨_, _, rfl⟩

/-- `nextAgent` changes the schedule and the number of draws alone. -/
theorem nextAgent_eq (s : State) : ∃ l n, (nextAgent s).2 = { s with sched := l, draws := n } := by
  unfold nextAgent State.drawn
  split <;> exact ⟨_, _, rfl⟩

/-- `askMap` changes the number of draws alone. -/
theorem askMap_eq (s : State) : ∃ n, (askMap s).2 = { s with draws := n } := by
  unfold askMap State.drawn
  split <;> exact ⟨_, rfl⟩

/-- `askRegister` changes the number of draws alone. -/
theorem askRegister_eq (s : State) (r : RegReply) : ∃ n, (askRegister s r).2 = { s with draws := n } := by
  unfold askRegister State.drawn
  split <;> exact ⟨_, rfl⟩

/-- `outboundByte` changes the number of draws alone. -/
theorem outboundByte_eq (s : State) : ∃ n, (outboundByte s).2 = { s with draws := n } := by
  unfold outboundByte draw State.drawn
  split <;> exact ⟨_, rfl⟩

/-- `sampleStat` counts one draw and changes nothing else. -/
theorem sampleStat_eq (s : State) : (sampleStat s).2 = s.drawn := by
  unfold sampleStat draw
  split <;> rfl

/-! ### `deviceSees` -/

@[simp] theorem deviceSees_pc (s : State) (e : DevEvent) : (deviceSees s e).pc = s.pc := by obtain ⟨_, h⟩ := deviceSees_eq s e; rw [h]
@[simp] theorem deviceSees_ctrl (s : State) (e : DevEvent) : (deviceSees s e).ctrl = s.ctrl := by obtain ⟨_, h⟩ := deviceSees_eq s e; rw [h]
@[simp] theorem deviceSees_rdeng (s : State) (e : DevEvent) : (deviceSees s e).rdeng = s.rdeng := by obtain ⟨_, h⟩ := deviceSees_eq s e; rw [h]
@[simp] theorem deviceSees_cs (s : State) (e : DevEvent) : (deviceSees s e).cs = s.cs := by obtain ⟨_, h⟩ := deviceSees_eq s e; rw [h]
@[simp] theorem deviceSees_rxf (s : State) (e : DevEvent) : (deviceSees s e).rxf = s.rxf := by obtain ⟨_, h⟩ := deviceSees_eq s e; rw [h]
@[simp] theorem deviceSees_txf (s : State) (e : DevEvent) : (deviceSees s e).txf = s.txf := by obtain ⟨_, h⟩ := deviceSees_eq s e; rw [h]
@[simp] theorem deviceSees_iface (s : State) (e : DevEvent) : (deviceSees s e).iface = s.iface := by obtain ⟨_, h⟩ := deviceSees_eq s e; rw [h]
@[simp] theorem deviceSees_handle (s : State) (e : DevEvent) : (deviceSees s e).handle = s.handle := by obtain ⟨_, h⟩ := deviceSees_eq s e; rw [h]
@[simp] theorem deviceSees_lc (s : State) (e : DevEvent) : (deviceSees s e).lc = s.lc := by obtain ⟨_, h⟩ := deviceSees_eq s e; rw [h]
@[simp] theorem deviceSees_hooked (s : State) (e : DevEvent) : (deviceSees s e).hooked = s.hooked := by obtain ⟨_, h⟩ := deviceSees_eq s e; rw [h]
@[simp] theorem deviceSees_master (s : State) (e : DevEvent) : (deviceSees s e).master = s.master := by obtain ⟨_, h⟩ := deviceSees_eq s e; rw [h]
@[simp] theorem deviceSees_regT (s : State) (e : DevEvent) : (deviceSees s e).regT = s.regT := by obtain ⟨_, h⟩ := deviceSees_eq s e; rw [h]
@[simp] theorem deviceSees_regS (s : State) (e : DevEvent) : (deviceSees s e).regS = s.regS := by obtain ⟨_, h⟩ := deviceSees_eq s e; rw [h]
@[simp] theorem deviceSees_regI (s : State) (e : DevEvent) : (deviceSees s e).regI = s.regI := by obtain ⟨_, h⟩ := deviceSees_eq s e; rw [h]
@[simp] theorem deviceSees_regW (s : State) (e : DevEvent) : (deviceSees s e).regW = s.regW := by obtain ⟨_, h⟩ := deviceSees_eq s e; rw [h]
@[simp] theorem deviceSees_regR (s : State) (e : DevEvent) : (deviceSees s e).regR = s.regR := by obtain ⟨_, h⟩ := deviceSees_eq s e; rw [h]
@[simp] theorem deviceSees_regST (s : State) (e : DevEvent) : (deviceSees s e).regST = s.regST := by obtain ⟨_, h⟩ := deviceSees_eq s e; rw [h]
@[simp] theorem deviceSees_held (s : State) (e : DevEvent) : (deviceSees s e).held = s.held := by obtain ⟨_, h⟩ := deviceSees_eq s e; rw [h]
@[simp] theorem deviceSees_mem (s : State) (e : DevEvent) : (deviceSees s e).mem = s.mem := by obtain ⟨_, h⟩ := deviceSees_eq s e; rw [h]
@[simp] theorem deviceSees_requests (s : State) (e : DevEvent) : (deviceSees s e).requests = s.requests := by obtain ⟨_, h⟩ := deviceSees_eq s e; rw [h]
@[simp] theorem deviceSees_mapReply (s : State) (e : DevEvent) : (deviceSees s e).mapReply = s.mapReply := by obtain ⟨_, h⟩ := deviceSees_eq s e; rw [h]
@[simp] theorem deviceSees_hookReply (s : State) (e : DevEvent) : (deviceSees s e).hookReply = s.hookReply := by obtain ⟨_, h⟩ := deviceSees_eq s e; rw [h]
@[simp] theorem deviceSees_masterReply (s : State) (e : DevEvent) : (deviceSees s e).masterReply = s.masterReply := by obtain ⟨_, h⟩ := deviceSees_eq s e; rw [h]
@[simp] theorem deviceSees_sched (s : State) (e : DevEvent) : (deviceSees s e).sched = s.sched := by obtain ⟨_, h⟩ := deviceSees_eq s e; rw [h]
@[simp] theorem deviceSees_draws (s : State) (e : DevEvent) : (deviceSees s e).draws = s.draws := by obtain ⟨_, h⟩ := deviceSees_eq s e; rw [h]
@[simp] theorem deviceSees_trace (s : State) (e : DevEvent) : (deviceSees s e).trace = s.trace := by obtain ⟨_, h⟩ := deviceSees_eq s e; rw [h]

/-! ### `exchange` -/

@[simp] theorem exchange_pc (s : State) (l : Cs0) (b : Byte) : ((exchange s l b).2).pc = s.pc := by obtain ⟨_, _, h⟩ := exchange_eq s l b; rw [h]
@[simp] theorem exchange_ctrl (s : State) (l : Cs0) (b : Byte) : ((exchange s l b).2).ctrl = s.ctrl := by obtain ⟨_, _, h⟩ := exchange_eq s l b; rw [h]
@[simp] theorem exchange_rdeng (s : State) (l : Cs0) (b : Byte) : ((exchange s l b).2).rdeng = s.rdeng := by obtain ⟨_, _, h⟩ := exchange_eq s l b; rw [h]
@[simp] theorem exchange_cs (s : State) (l : Cs0) (b : Byte) : ((exchange s l b).2).cs = s.cs := by obtain ⟨_, _, h⟩ := exchange_eq s l b; rw [h]
@[simp] theorem exchange_rxf (s : State) (l : Cs0) (b : Byte) : ((exchange s l b).2).rxf = s.rxf := by obtain ⟨_, _, h⟩ := exchange_eq s l b; rw [h]
@[simp] theorem exchange_txf (s : State) (l : Cs0) (b : Byte) : ((exchange s l b).2).txf = s.txf := by obtain ⟨_, _, h⟩ := exchange_eq s l b; rw [h]
@[simp] theorem exchange_iface (s : State) (l : Cs0) (b : Byte) : ((exchange s l b).2).iface = s.iface := by obtain ⟨_, _, h⟩ := exchange_eq s l b; rw [h]
@[simp] theorem exchange_handle (s : State) (l : Cs0) (b : Byte) : ((exchange s l b).2).handle = s.handle := by obtain ⟨_, _, h⟩ := exchange_eq s l b; rw [h]
@[simp] theorem exchange_lc (s : State) (l : Cs0) (b : Byte) : ((exchange s l b).2).lc = s.lc := by obtain ⟨_, _, h⟩ := exchange_eq s l b; rw [h]
@[simp] theorem exchange_hooked (s : State) (l : Cs0) (b : Byte) : ((exchange s l b).2).hooked = s.hooked := by obtain ⟨_, _, h⟩ := exchange_eq s l b; rw [h]
@[simp] theorem exchange_master (s : State) (l : Cs0) (b : Byte) : ((exchange s l b).2).master = s.master := by obtain ⟨_, _, h⟩ := exchange_eq s l b; rw [h]
@[simp] theorem exchange_regT (s : State) (l : Cs0) (b : Byte) : ((exchange s l b).2).regT = s.regT := by obtain ⟨_, _, h⟩ := exchange_eq s l b; rw [h]
@[simp] theorem exchange_regS (s : State) (l : Cs0) (b : Byte) : ((exchange s l b).2).regS = s.regS := by obtain ⟨_, _, h⟩ := exchange_eq s l b; rw [h]
@[simp] theorem exchange_regI (s : State) (l : Cs0) (b : Byte) : ((exchange s l b).2).regI = s.regI := by obtain ⟨_, _, h⟩ := exchange_eq s l b; rw [h]
@[simp] theorem exchange_regW (s : State) (l : Cs0) (b : Byte) : ((exchange s l b).2).regW = s.regW := by obtain ⟨_, _, h⟩ := exchange_eq s l b; rw [h]
@[simp] theorem exchange_regR (s : State) (l : Cs0) (b : Byte) : ((exchange s l b).2).regR = s.regR := by obtain ⟨_, _, h⟩ := exchange_eq s l b; rw [h]
@[simp] theorem exchange_regST (s : State) (l : Cs0) (b : Byte) : ((exchange s l b).2).regST = s.regST := by obtain ⟨_, _, h⟩ := exchange_eq s l b; rw [h]
@[simp] theorem exchange_held (s : State) (l : Cs0) (b : Byte) : ((exchange s l b).2).held = s.held := by obtain ⟨_, _, h⟩ := exchange_eq s l b; rw [h]
@[simp] theorem exchange_mem (s : State) (l : Cs0) (b : Byte) : ((exchange s l b).2).mem = s.mem := by obtain ⟨_, _, h⟩ := exchange_eq s l b; rw [h]
@[simp] theorem exchange_requests (s : State) (l : Cs0) (b : Byte) : ((exchange s l b).2).requests = s.requests := by obtain ⟨_, _, h⟩ := exchange_eq s l b; rw [h]
@[simp] theorem exchange_mapReply (s : State) (l : Cs0) (b : Byte) : ((exchange s l b).2).mapReply = s.mapReply := by obtain ⟨_, _, h⟩ := exchange_eq s l b; rw [h]
@[simp] theorem exchange_hookReply (s : State) (l : Cs0) (b : Byte) : ((exchange s l b).2).hookReply = s.hookReply := by obtain ⟨_, _, h⟩ := exchange_eq s l b; rw [h]
@[simp] theorem exchange_masterReply (s : State) (l : Cs0) (b : Byte) : ((exchange s l b).2).masterReply = s.masterReply := by obtain ⟨_, _, h⟩ := exchange_eq s l b; rw [h]
@[simp] theorem exchange_sched (s : State) (l : Cs0) (b : Byte) : ((exchange s l b).2).sched = s.sched := by obtain ⟨_, _, h⟩ := exchange_eq s l b; rw [h]
@[simp] theorem exchange_trace (s : State) (l : Cs0) (b : Byte) : ((exchange s l b).2).trace = s.trace := by obtain ⟨_, _, h⟩ := exchange_eq s l b; rw [h]

/-! ### `nextAgent` -/

@[simp] theorem nextAgent_pc (s : State) : ((nextAgent s).2).pc = s.pc := by obtain ⟨_, _, h⟩ := nextAgent_eq s; rw [h]
@[simp] theorem nextAgent_ctrl (s : State) : ((nextAgent s).2).ctrl = s.ctrl := by obtain ⟨_, _, h⟩ := nextAgent_eq s; rw [h]
@[simp] theorem nextAgent_rdeng (s : State) : ((nextAgent s).2).rdeng = s.rdeng := by obtain ⟨_, _, h⟩ := nextAgent_eq s; rw [h]
@[simp] theorem nextAgent_cs (s : State) : ((nextAgent s).2).cs = s.cs := by obtain ⟨_, _, h⟩ := nextAgent_eq s; rw [h]
@[simp] theorem nextAgent_rxf (s : State) : ((nextAgent s).2).rxf = s.rxf := by obtain ⟨_, _, h⟩ := nextAgent_eq s; rw [h]
@[simp] theorem nextAgent_txf (s : State) : ((nextAgent s).2).txf = s.txf := by obtain ⟨_, _, h⟩ := nextAgent_eq s; rw [h]
@[simp] theorem nextAgent_dev (s : State) : ((nextAgent s).2).dev = s.dev := by obtain ⟨_, _, h⟩ := nextAgent_eq s; rw [h]
@[simp] theorem nextAgent_iface (s : State) : ((nextAgent s).2).iface = s.iface := by obtain ⟨_, _, h⟩ := nextAgent_eq s; rw [h]
@[simp] theorem nextAgent_handle (s : State) : ((nextAgent s).2).handle = s.handle := by obtain ⟨_, _, h⟩ := nextAgent_eq s; rw [h]
@[simp] theorem nextAgent_lc (s : State) : ((nextAgent s).2).lc = s.lc := by obtain ⟨_, _, h⟩ := nextAgent_eq s; rw [h]
@[simp] theorem nextAgent_hooked (s : State) : ((nextAgent s).2).hooked = s.hooked := by obtain ⟨_, _, h⟩ := nextAgent_eq s; rw [h]
@[simp] theorem nextAgent_master (s : State) : ((nextAgent s).2).master = s.master := by obtain ⟨_, _, h⟩ := nextAgent_eq s; rw [h]
@[simp] theorem nextAgent_regT (s : State) : ((nextAgent s).2).regT = s.regT := by obtain ⟨_, _, h⟩ := nextAgent_eq s; rw [h]
@[simp] theorem nextAgent_regS (s : State) : ((nextAgent s).2).regS = s.regS := by obtain ⟨_, _, h⟩ := nextAgent_eq s; rw [h]
@[simp] theorem nextAgent_regI (s : State) : ((nextAgent s).2).regI = s.regI := by obtain ⟨_, _, h⟩ := nextAgent_eq s; rw [h]
@[simp] theorem nextAgent_regW (s : State) : ((nextAgent s).2).regW = s.regW := by obtain ⟨_, _, h⟩ := nextAgent_eq s; rw [h]
@[simp] theorem nextAgent_regR (s : State) : ((nextAgent s).2).regR = s.regR := by obtain ⟨_, _, h⟩ := nextAgent_eq s; rw [h]
@[simp] theorem nextAgent_regST (s : State) : ((nextAgent s).2).regST = s.regST := by obtain ⟨_, _, h⟩ := nextAgent_eq s; rw [h]
@[simp] theorem nextAgent_held (s : State) : ((nextAgent s).2).held = s.held := by obtain ⟨_, _, h⟩ := nextAgent_eq s; rw [h]
@[simp] theorem nextAgent_mem (s : State) : ((nextAgent s).2).mem = s.mem := by obtain ⟨_, _, h⟩ := nextAgent_eq s; rw [h]
@[simp] theorem nextAgent_requests (s : State) : ((nextAgent s).2).requests = s.requests := by obtain ⟨_, _, h⟩ := nextAgent_eq s; rw [h]
@[simp] theorem nextAgent_mapReply (s : State) : ((nextAgent s).2).mapReply = s.mapReply := by obtain ⟨_, _, h⟩ := nextAgent_eq s; rw [h]
@[simp] theorem nextAgent_hookReply (s : State) : ((nextAgent s).2).hookReply = s.hookReply := by obtain ⟨_, _, h⟩ := nextAgent_eq s; rw [h]
@[simp] theorem nextAgent_masterReply (s : State) : ((nextAgent s).2).masterReply = s.masterReply := by obtain ⟨_, _, h⟩ := nextAgent_eq s; rw [h]
@[simp] theorem nextAgent_trace (s : State) : ((nextAgent s).2).trace = s.trace := by obtain ⟨_, _, h⟩ := nextAgent_eq s; rw [h]

/-! ### `askMap` -/

@[simp] theorem askMap_pc (s : State) : ((askMap s).2).pc = s.pc := by obtain ⟨_, h⟩ := askMap_eq s; rw [h]
@[simp] theorem askMap_ctrl (s : State) : ((askMap s).2).ctrl = s.ctrl := by obtain ⟨_, h⟩ := askMap_eq s; rw [h]
@[simp] theorem askMap_rdeng (s : State) : ((askMap s).2).rdeng = s.rdeng := by obtain ⟨_, h⟩ := askMap_eq s; rw [h]
@[simp] theorem askMap_cs (s : State) : ((askMap s).2).cs = s.cs := by obtain ⟨_, h⟩ := askMap_eq s; rw [h]
@[simp] theorem askMap_rxf (s : State) : ((askMap s).2).rxf = s.rxf := by obtain ⟨_, h⟩ := askMap_eq s; rw [h]
@[simp] theorem askMap_txf (s : State) : ((askMap s).2).txf = s.txf := by obtain ⟨_, h⟩ := askMap_eq s; rw [h]
@[simp] theorem askMap_dev (s : State) : ((askMap s).2).dev = s.dev := by obtain ⟨_, h⟩ := askMap_eq s; rw [h]
@[simp] theorem askMap_iface (s : State) : ((askMap s).2).iface = s.iface := by obtain ⟨_, h⟩ := askMap_eq s; rw [h]
@[simp] theorem askMap_handle (s : State) : ((askMap s).2).handle = s.handle := by obtain ⟨_, h⟩ := askMap_eq s; rw [h]
@[simp] theorem askMap_lc (s : State) : ((askMap s).2).lc = s.lc := by obtain ⟨_, h⟩ := askMap_eq s; rw [h]
@[simp] theorem askMap_hooked (s : State) : ((askMap s).2).hooked = s.hooked := by obtain ⟨_, h⟩ := askMap_eq s; rw [h]
@[simp] theorem askMap_master (s : State) : ((askMap s).2).master = s.master := by obtain ⟨_, h⟩ := askMap_eq s; rw [h]
@[simp] theorem askMap_regT (s : State) : ((askMap s).2).regT = s.regT := by obtain ⟨_, h⟩ := askMap_eq s; rw [h]
@[simp] theorem askMap_regS (s : State) : ((askMap s).2).regS = s.regS := by obtain ⟨_, h⟩ := askMap_eq s; rw [h]
@[simp] theorem askMap_regI (s : State) : ((askMap s).2).regI = s.regI := by obtain ⟨_, h⟩ := askMap_eq s; rw [h]
@[simp] theorem askMap_regW (s : State) : ((askMap s).2).regW = s.regW := by obtain ⟨_, h⟩ := askMap_eq s; rw [h]
@[simp] theorem askMap_regR (s : State) : ((askMap s).2).regR = s.regR := by obtain ⟨_, h⟩ := askMap_eq s; rw [h]
@[simp] theorem askMap_regST (s : State) : ((askMap s).2).regST = s.regST := by obtain ⟨_, h⟩ := askMap_eq s; rw [h]
@[simp] theorem askMap_held (s : State) : ((askMap s).2).held = s.held := by obtain ⟨_, h⟩ := askMap_eq s; rw [h]
@[simp] theorem askMap_mem (s : State) : ((askMap s).2).mem = s.mem := by obtain ⟨_, h⟩ := askMap_eq s; rw [h]
@[simp] theorem askMap_requests (s : State) : ((askMap s).2).requests = s.requests := by obtain ⟨_, h⟩ := askMap_eq s; rw [h]
@[simp] theorem askMap_mapReply (s : State) : ((askMap s).2).mapReply = s.mapReply := by obtain ⟨_, h⟩ := askMap_eq s; rw [h]
@[simp] theorem askMap_hookReply (s : State) : ((askMap s).2).hookReply = s.hookReply := by obtain ⟨_, h⟩ := askMap_eq s; rw [h]
@[simp] theorem askMap_masterReply (s : State) : ((askMap s).2).masterReply = s.masterReply := by obtain ⟨_, h⟩ := askMap_eq s; rw [h]
@[simp] theorem askMap_sched (s : State) : ((askMap s).2).sched = s.sched := by obtain ⟨_, h⟩ := askMap_eq s; rw [h]
@[simp] theorem askMap_trace (s : State) : ((askMap s).2).trace = s.trace := by obtain ⟨_, h⟩ := askMap_eq s; rw [h]

/-! ### `askRegister` -/

@[simp] theorem askRegister_pc (s : State) (r : RegReply) : ((askRegister s r).2).pc = s.pc := by obtain ⟨_, h⟩ := askRegister_eq s r; rw [h]
@[simp] theorem askRegister_ctrl (s : State) (r : RegReply) : ((askRegister s r).2).ctrl = s.ctrl := by obtain ⟨_, h⟩ := askRegister_eq s r; rw [h]
@[simp] theorem askRegister_rdeng (s : State) (r : RegReply) : ((askRegister s r).2).rdeng = s.rdeng := by obtain ⟨_, h⟩ := askRegister_eq s r; rw [h]
@[simp] theorem askRegister_cs (s : State) (r : RegReply) : ((askRegister s r).2).cs = s.cs := by obtain ⟨_, h⟩ := askRegister_eq s r; rw [h]
@[simp] theorem askRegister_rxf (s : State) (r : RegReply) : ((askRegister s r).2).rxf = s.rxf := by obtain ⟨_, h⟩ := askRegister_eq s r; rw [h]
@[simp] theorem askRegister_txf (s : State) (r : RegReply) : ((askRegister s r).2).txf = s.txf := by obtain ⟨_, h⟩ := askRegister_eq s r; rw [h]
@[simp] theorem askRegister_dev (s : State) (r : RegReply) : ((askRegister s r).2).dev = s.dev := by obtain ⟨_, h⟩ := askRegister_eq s r; rw [h]
@[simp] theorem askRegister_iface (s : State) (r : RegReply) : ((askRegister s r).2).iface = s.iface := by obtain ⟨_, h⟩ := askRegister_eq s r; rw [h]
@[simp] theorem askRegister_handle (s : State) (r : RegReply) : ((askRegister s r).2).handle = s.handle := by obtain ⟨_, h⟩ := askRegister_eq s r; rw [h]
@[simp] theorem askRegister_lc (s : State) (r : RegReply) : ((askRegister s r).2).lc = s.lc := by obtain ⟨_, h⟩ := askRegister_eq s r; rw [h]
@[simp] theorem askRegister_hooked (s : State) (r : RegReply) : ((askRegister s r).2).hooked = s.hooked := by obtain ⟨_, h⟩ := askRegister_eq s r; rw [h]
@[simp] theorem askRegister_master (s : State) (r : RegReply) : ((askRegister s r).2).master = s.master := by obtain ⟨_, h⟩ := askRegister_eq s r; rw [h]
@[simp] theorem askRegister_regT (s : State) (r : RegReply) : ((askRegister s r).2).regT = s.regT := by obtain ⟨_, h⟩ := askRegister_eq s r; rw [h]
@[simp] theorem askRegister_regS (s : State) (r : RegReply) : ((askRegister s r).2).regS = s.regS := by obtain ⟨_, h⟩ := askRegister_eq s r; rw [h]
@[simp] theorem askRegister_regI (s : State) (r : RegReply) : ((askRegister s r).2).regI = s.regI := by obtain ⟨_, h⟩ := askRegister_eq s r; rw [h]
@[simp] theorem askRegister_regW (s : State) (r : RegReply) : ((askRegister s r).2).regW = s.regW := by obtain ⟨_, h⟩ := askRegister_eq s r; rw [h]
@[simp] theorem askRegister_regR (s : State) (r : RegReply) : ((askRegister s r).2).regR = s.regR := by obtain ⟨_, h⟩ := askRegister_eq s r; rw [h]
@[simp] theorem askRegister_regST (s : State) (r : RegReply) : ((askRegister s r).2).regST = s.regST := by obtain ⟨_, h⟩ := askRegister_eq s r; rw [h]
@[simp] theorem askRegister_held (s : State) (r : RegReply) : ((askRegister s r).2).held = s.held := by obtain ⟨_, h⟩ := askRegister_eq s r; rw [h]
@[simp] theorem askRegister_mem (s : State) (r : RegReply) : ((askRegister s r).2).mem = s.mem := by obtain ⟨_, h⟩ := askRegister_eq s r; rw [h]
@[simp] theorem askRegister_requests (s : State) (r : RegReply) : ((askRegister s r).2).requests = s.requests := by obtain ⟨_, h⟩ := askRegister_eq s r; rw [h]
@[simp] theorem askRegister_mapReply (s : State) (r : RegReply) : ((askRegister s r).2).mapReply = s.mapReply := by obtain ⟨_, h⟩ := askRegister_eq s r; rw [h]
@[simp] theorem askRegister_hookReply (s : State) (r : RegReply) : ((askRegister s r).2).hookReply = s.hookReply := by obtain ⟨_, h⟩ := askRegister_eq s r; rw [h]
@[simp] theorem askRegister_masterReply (s : State) (r : RegReply) : ((askRegister s r).2).masterReply = s.masterReply := by obtain ⟨_, h⟩ := askRegister_eq s r; rw [h]
@[simp] theorem askRegister_sched (s : State) (r : RegReply) : ((askRegister s r).2).sched = s.sched := by obtain ⟨_, h⟩ := askRegister_eq s r; rw [h]
@[simp] theorem askRegister_trace (s : State) (r : RegReply) : ((askRegister s r).2).trace = s.trace := by obtain ⟨_, h⟩ := askRegister_eq s r; rw [h]

/-! ### `outboundByte` -/

@[simp] theorem outboundByte_pc (s : State) : ((outboundByte s).2).pc = s.pc := by obtain ⟨_, h⟩ := outboundByte_eq s; rw [h]
@[simp] theorem outboundByte_ctrl (s : State) : ((outboundByte s).2).ctrl = s.ctrl := by obtain ⟨_, h⟩ := outboundByte_eq s; rw [h]
@[simp] theorem outboundByte_rdeng (s : State) : ((outboundByte s).2).rdeng = s.rdeng := by obtain ⟨_, h⟩ := outboundByte_eq s; rw [h]
@[simp] theorem outboundByte_cs (s : State) : ((outboundByte s).2).cs = s.cs := by obtain ⟨_, h⟩ := outboundByte_eq s; rw [h]
@[simp] theorem outboundByte_rxf (s : State) : ((outboundByte s).2).rxf = s.rxf := by obtain ⟨_, h⟩ := outboundByte_eq s; rw [h]
@[simp] theorem outboundByte_txf (s : State) : ((outboundByte s).2).txf = s.txf := by obtain ⟨_, h⟩ := outboundByte_eq s; rw [h]
@[simp] theorem outboundByte_dev (s : State) : ((outboundByte s).2).dev = s.dev := by obtain ⟨_, h⟩ := outboundByte_eq s; rw [h]
@[simp] theorem outboundByte_iface (s : State) : ((outboundByte s).2).iface = s.iface := by obtain ⟨_, h⟩ := outboundByte_eq s; rw [h]
@[simp] theorem outboundByte_handle (s : State) : ((outboundByte s).2).handle = s.handle := by obtain ⟨_, h⟩ := outboundByte_eq s; rw [h]
@[simp] theorem outboundByte_lc (s : State) : ((outboundByte s).2).lc = s.lc := by obtain ⟨_, h⟩ := outboundByte_eq s; rw [h]
@[simp] theorem outboundByte_hooked (s : State) : ((outboundByte s).2).hooked = s.hooked := by obtain ⟨_, h⟩ := outboundByte_eq s; rw [h]
@[simp] theorem outboundByte_master (s : State) : ((outboundByte s).2).master = s.master := by obtain ⟨_, h⟩ := outboundByte_eq s; rw [h]
@[simp] theorem outboundByte_regT (s : State) : ((outboundByte s).2).regT = s.regT := by obtain ⟨_, h⟩ := outboundByte_eq s; rw [h]
@[simp] theorem outboundByte_regS (s : State) : ((outboundByte s).2).regS = s.regS := by obtain ⟨_, h⟩ := outboundByte_eq s; rw [h]
@[simp] theorem outboundByte_regI (s : State) : ((outboundByte s).2).regI = s.regI := by obtain ⟨_, h⟩ := outboundByte_eq s; rw [h]
@[simp] theorem outboundByte_regW (s : State) : ((outboundByte s).2).regW = s.regW := by obtain ⟨_, h⟩ := outboundByte_eq s; rw [h]
@[simp] theorem outboundByte_regR (s : State) : ((outboundByte s).2).regR = s.regR := by obtain ⟨_, h⟩ := outboundByte_eq s; rw [h]
@[simp] theorem outboundByte_regST (s : State) : ((outboundByte s).2).regST = s.regST := by obtain ⟨_, h⟩ := outboundByte_eq s; rw [h]
@[simp] theorem outboundByte_held (s : State) : ((outboundByte s).2).held = s.held := by obtain ⟨_, h⟩ := outboundByte_eq s; rw [h]
@[simp] theorem outboundByte_mem (s : State) : ((outboundByte s).2).mem = s.mem := by obtain ⟨_, h⟩ := outboundByte_eq s; rw [h]
@[simp] theorem outboundByte_requests (s : State) : ((outboundByte s).2).requests = s.requests := by obtain ⟨_, h⟩ := outboundByte_eq s; rw [h]
@[simp] theorem outboundByte_mapReply (s : State) : ((outboundByte s).2).mapReply = s.mapReply := by obtain ⟨_, h⟩ := outboundByte_eq s; rw [h]
@[simp] theorem outboundByte_hookReply (s : State) : ((outboundByte s).2).hookReply = s.hookReply := by obtain ⟨_, h⟩ := outboundByte_eq s; rw [h]
@[simp] theorem outboundByte_masterReply (s : State) : ((outboundByte s).2).masterReply = s.masterReply := by obtain ⟨_, h⟩ := outboundByte_eq s; rw [h]
@[simp] theorem outboundByte_sched (s : State) : ((outboundByte s).2).sched = s.sched := by obtain ⟨_, h⟩ := outboundByte_eq s; rw [h]
@[simp] theorem outboundByte_trace (s : State) : ((outboundByte s).2).trace = s.trace := by obtain ⟨_, h⟩ := outboundByte_eq s; rw [h]

/-! ### `sampleStat` -/

@[simp] theorem sampleStat_pc (s : State) : (sampleStat s).2.pc = s.pc := by rw [sampleStat_eq]; rfl
@[simp] theorem sampleStat_ctrl (s : State) : (sampleStat s).2.ctrl = s.ctrl := by rw [sampleStat_eq]; rfl
@[simp] theorem sampleStat_rdeng (s : State) : (sampleStat s).2.rdeng = s.rdeng := by rw [sampleStat_eq]; rfl
@[simp] theorem sampleStat_cs (s : State) : (sampleStat s).2.cs = s.cs := by rw [sampleStat_eq]; rfl
@[simp] theorem sampleStat_rxf (s : State) : (sampleStat s).2.rxf = s.rxf := by rw [sampleStat_eq]; rfl
@[simp] theorem sampleStat_txf (s : State) : (sampleStat s).2.txf = s.txf := by rw [sampleStat_eq]; rfl
@[simp] theorem sampleStat_dev (s : State) : (sampleStat s).2.dev = s.dev := by rw [sampleStat_eq]; rfl
@[simp] theorem sampleStat_iface (s : State) : (sampleStat s).2.iface = s.iface := by rw [sampleStat_eq]; rfl
@[simp] theorem sampleStat_handle (s : State) : (sampleStat s).2.handle = s.handle := by rw [sampleStat_eq]; rfl
@[simp] theorem sampleStat_lc (s : State) : (sampleStat s).2.lc = s.lc := by rw [sampleStat_eq]; rfl
@[simp] theorem sampleStat_hooked (s : State) : (sampleStat s).2.hooked = s.hooked := by rw [sampleStat_eq]; rfl
@[simp] theorem sampleStat_master (s : State) : (sampleStat s).2.master = s.master := by rw [sampleStat_eq]; rfl
@[simp] theorem sampleStat_regT (s : State) : (sampleStat s).2.regT = s.regT := by rw [sampleStat_eq]; rfl
@[simp] theorem sampleStat_regS (s : State) : (sampleStat s).2.regS = s.regS := by rw [sampleStat_eq]; rfl
@[simp] theorem sampleStat_regI (s : State) : (sampleStat s).2.regI = s.regI := by rw [sampleStat_eq]; rfl
@[simp] theorem sampleStat_regW (s : State) : (sampleStat s).2.regW = s.regW := by rw [sampleStat_eq]; rfl
@[simp] theorem sampleStat_regR (s : State) : (sampleStat s).2.regR = s.regR := by rw [sampleStat_eq]; rfl
@[simp] theorem sampleStat_regST (s : State) : (sampleStat s).2.regST = s.regST := by rw [sampleStat_eq]; rfl
@[simp] theorem sampleStat_held (s : State) : (sampleStat s).2.held = s.held := by rw [sampleStat_eq]; rfl
@[simp] theorem sampleStat_mem (s : State) : (sampleStat s).2.mem = s.mem := by rw [sampleStat_eq]; rfl
@[simp] theorem sampleStat_requests (s : State) : (sampleStat s).2.requests = s.requests := by rw [sampleStat_eq]; rfl
@[simp] theorem sampleStat_mapReply (s : State) : (sampleStat s).2.mapReply = s.mapReply := by rw [sampleStat_eq]; rfl
@[simp] theorem sampleStat_hookReply (s : State) : (sampleStat s).2.hookReply = s.hookReply := by rw [sampleStat_eq]; rfl
@[simp] theorem sampleStat_masterReply (s : State) : (sampleStat s).2.masterReply = s.masterReply := by rw [sampleStat_eq]; rfl
@[simp] theorem sampleStat_sched (s : State) : (sampleStat s).2.sched = s.sched := by rw [sampleStat_eq]; rfl
@[simp] theorem sampleStat_draws (s : State) : (sampleStat s).2.draws = s.draws + 1 := by rw [sampleStat_eq]; rfl
@[simp] theorem sampleStat_trace (s : State) : (sampleStat s).2.trace = s.trace := by rw [sampleStat_eq]; rfl

end Sys2Proof.Machine
end

