-- ==== Sys2Proof/Laws/Flags.lean ====
section
/-! SUPPORT. The bits of the status byte (R13, R82, R93), of the read-modify-write results (R121, R123, R135) and of the
enabling condition, bit by bit, so that no later proof unfolds a mask. -/

namespace Sys2Proof.Machine

/-- The status byte's flags, from the four Booleans of the occupancies. -/
theorem statByte_bits (rd td rl tl : Nat) (f : Byte) :
    (statByte rd td rl tl f).getLsbD Config.pRfe = decide (rl = 0) ∧
      (statByte rd td rl tl f).getLsbD Config.pRff = decide (rl = rd) ∧
      (statByte rd td rl tl f).getLsbD Config.pWfe = decide (tl = 0) ∧
      (statByte rd td rl tl f).getLsbD Config.pWff = decide (tl = td) ∧
      ∀ n, 4 ≤ n → (statByte rd td rl tl f).getLsbD n = f.getLsbD n := by
  unfold statByte
  generalize decide (rl = 0) = a
  generalize decide (rl = rd) = b
  generalize decide (tl = 0) = c
  generalize decide (tl = td) = d
  refine ⟨?_, ?_, ?_, ?_, fun n hn => ?_⟩
  · cases a <;> cases b <;> cases c <;> cases d <;>
      simp [flagAt, occupancyMask, Config.mask, Config.pRfe, Config.pRff, Config.pWfe, Config.pWff]
  · cases a <;> cases b <;> cases c <;> cases d <;>
      simp [flagAt, occupancyMask, Config.mask, Config.pRfe, Config.pRff, Config.pWfe, Config.pWff]
  · cases a <;> cases b <;> cases c <;> cases d <;>
      simp [flagAt, occupancyMask, Config.mask, Config.pRfe, Config.pRff, Config.pWfe, Config.pWff]
  · cases a <;> cases b <;> cases c <;> cases d <;>
      simp [flagAt, occupancyMask, Config.mask, Config.pRfe, Config.pRff, Config.pWfe, Config.pWff]
  · by_cases h8 : n < 8
    · have h : n = 4 ∨ n = 5 ∨ n = 6 ∨ n = 7 := by omega
      rcases h with rfl | rfl | rfl | rfl <;> cases a <;> cases b <;> cases c <;> cases d <;>
        simp [flagAt, occupancyMask, Config.mask, Config.pRfe, Config.pRff, Config.pWfe, Config.pWff]
    · rw [BitVec.getLsbD_of_ge _ _ (by omega), BitVec.getLsbD_of_ge _ _ (by omega)]

/-- The one flag the echo double's status byte has. -/
theorem doubleStatByte_rfe (rl : Nat) (f : Byte) :
    (doubleStatByte rl f).getLsbD Config.pRfe = decide (rl = 0) := by
  unfold doubleStatByte
  generalize decide (rl = 0) = a
  cases a <;> simp [flagAt, Config.mask, Config.pRfe]

/-- `RFEMPTY` of a sample says whether `RXF` is empty, behind the core and behind the echo double (R18, R93). -/
@[simp] theorem sampleStat_rfe (s : State) : bit (sampleStat s).1 Config.pRfe = decide (s.rxf = []) := by
  have h : decide (s.rxf.length = 0) = decide (s.rxf = []) := by simp
  unfold sampleStat bit
  split
  · rw [(statByte_bits _ _ _ _ _).1, h]
  · rw [doubleStatByte_rfe, h]

/-- The flags of a sample behind the core (R82). -/
theorem sampleStat_bits {s : State} (hc : s.iface = .core) :
    (sampleStat s).1.getLsbD Config.pRfe = decide (s.rxf.length = 0) ∧
      (sampleStat s).1.getLsbD Config.pRff = decide (s.rxf.length = Config.rxDepth) ∧
      (sampleStat s).1.getLsbD Config.pWfe = decide (s.txf.length = 0) ∧
      (sampleStat s).1.getLsbD Config.pWff = decide (s.txf.length = Config.txDepth) ∧
      ∀ n, 4 ≤ n → (sampleStat s).1.getLsbD n = (Config.freeByte s.draws).getLsbD n := by
  have h : (sampleStat s).1 =
      statByte Config.rxDepth Config.txDepth s.rxf.length s.txf.length (Config.freeByte s.draws) := by
    simp [sampleStat, hc, draw]
  rw [h]
  exact statByte_bits _ _ _ _ _

/-- The bits of `T | M_MSTR | M_SPE` (R121). -/
theorem setEnable_bits (v : Byte) (n : Nat) (hn : n < 8) :
    (setBits v enableMask).getLsbD n = (decide (n = 4) || decide (n = 6) || v.getLsbD n) := by
  have h : n = 0 ∨ n = 1 ∨ n = 2 ∨ n = 3 ∨ n = 4 ∨ n = 5 ∨ n = 6 ∨ n = 7 := by omega
  rcases h with rfl | rfl | rfl | rfl | rfl | rfl | rfl | rfl <;>
    simp [setBits, enableMask, Config.mask, Config.pMstr, Config.pSpe]

/-- The bits of `T & ~M_REN` (R123). -/
theorem clearReadEngine_bits (v : Byte) (n : Nat) (hn : n < 8) :
    (clearBits v readEngineMask).getLsbD n = (!decide (n = 0) && v.getLsbD n) := by
  have h : n = 0 ∨ n = 1 ∨ n = 2 ∨ n = 3 ∨ n = 4 ∨ n = 5 ∨ n = 6 ∨ n = 7 := by omega
  rcases h with rfl | rfl | rfl | rfl | rfl | rfl | rfl | rfl <;>
    simp [clearBits, readEngineMask, Config.mask, Config.pRen]

/-- The bits of `T | M_REN` (R135). -/
theorem setReadEngine_bits (v : Byte) (n : Nat) (hn : n < 8) :
    (setBits v readEngineMask).getLsbD n = (decide (n = 0) || v.getLsbD n) := by
  have h : n = 0 ∨ n = 1 ∨ n = 2 ∨ n = 3 ∨ n = 4 ∨ n = 5 ∨ n = 6 ∨ n = 7 := by omega
  rcases h with rfl | rfl | rfl | rfl | rfl | rfl | rfl | rfl <;>
    simp [setBits, readEngineMask, Config.mask, Config.pRen]

/-- `INIT`'s write of `CTRL` never clears an enable bit. -/
@[simp] theorem clearsEnable_setEnable (old v : Byte) : clearsEnable old (setBits v enableMask) = false := by
  unfold clearsEnable bit
  rw [setEnable_bits v _ (by decide), setEnable_bits v _ (by decide)]
  simp [Config.pSpe, Config.pMstr]

/-- `INIT`'s write of `RDENG` never sets `REN`. -/
@[simp] theorem setsReadEngine_clear (old v : Byte) : setsReadEngine old (clearBits v readEngineMask) = false := by
  unfold setsReadEngine bit
  rw [clearReadEngine_bits v _ (by decide)]
  simp [Config.pRen]

@[simp] theorem lineOf_csAssert : lineOf Config.csAssert = .asserted := by decide

@[simp] theorem lineOf_csDeassert : lineOf Config.csDeassert = .deasserted := by decide

@[simp] theorem lineOf_csClear : lineOf Config.csClear = .hw := by decide

@[simp] theorem isCsPattern_csAssert : isCsPattern Config.csAssert = true := by decide

@[simp] theorem isCsPattern_csDeassert : isCsPattern Config.csDeassert = true := by decide

@[simp] theorem isCsPattern_csClear : isCsPattern Config.csClear = true := by decide

end Sys2Proof.Machine
end

