-- ==== Sys2Proof/Laws/Memory.lean ====
section
/-! SUPPORT. The laws of the caller's memory: a read after a write, every other address untouched, and the canonical
form kept by every operation. The first two need no canonical form. -/

namespace Sys2Proof.Machine

@[simp] theorem memRead_nil (x : Nat) : memRead [] x = memBlank := rfl

theorem memRead_cons (c : Host.Cell) (m : Memory) (x : Nat) :
    memRead (c :: m) x = if c.1 = x then c.2 else memRead m x := by
  obtain ⟨a, v⟩ := c
  rfl

/-- An erased address reads as blank; every other address reads as before. -/
theorem memRead_erase (m : Memory) (x y : Nat) :
    memRead (memErase m x) y = if y = x then memBlank else memRead m y := by
  induction m with
  | nil => simp [memErase]
  | cons c m ih =>
    unfold memErase at ih ⊢
    by_cases hc : c.1 = x
    · rw [List.filter_cons_of_neg (by simp [hc]), ih, memRead_cons]
      split_ifs <;> simp_all
    · rw [List.filter_cons_of_pos (by simp [hc]), memRead_cons, ih, memRead_cons]
      split_ifs <;> simp_all

/-- Inserting a cell whose address the memory does not list. -/
theorem memRead_insert (m : Memory) (x y : Nat) (v : Byte) (h : ∀ c ∈ m, c.1 ≠ x) :
    memRead (memInsert m x v) y = if y = x then v else memRead m y := by
  induction m with
  | nil =>
    show (if x = y then v else memBlank) = if y = x then v else memBlank
    simp [eq_comm]
  | cons c m ih =>
    obtain ⟨a, b⟩ := c
    have ha : a ≠ x := h (a, b) (by simp)
    have ih' := ih (fun c hc => h c (by simp [hc]))
    unfold memInsert
    by_cases hax : a < x
    · rw [if_pos hax, memRead_cons, ih', memRead_cons]
      by_cases hy : y = x
      · subst hy; simp [ha]
      · simp [hy]
    · rw [if_neg hax, memRead_cons]
      simp only [eq_comm]

theorem memErase_ne (m : Memory) (x : Nat) : ∀ c ∈ memErase m x, c.1 ≠ x := by
  intro c hc
  simpa [memErase] using (List.mem_filter.mp hc).2

/-- Everything a write does to the reads of a memory. -/
theorem memRead_write (m : Memory) (x y : Nat) (v : Byte) :
    memRead (memWrite m x v) y = if y = x then v else memRead m y := by
  unfold memWrite
  split_ifs with hv hy hy
  · rw [memRead_erase, if_pos hy, hv]
  · rw [memRead_erase, if_neg hy]
  · rw [memRead_insert _ _ _ _ (memErase_ne m x), if_pos hy]
  · rw [memRead_insert _ _ _ _ (memErase_ne m x), if_neg hy, memRead_erase, if_neg hy]

@[simp] theorem memRead_write_same (m : Memory) (x : Nat) (v : Byte) : memRead (memWrite m x v) x = v := by
  simp [memRead_write]

theorem memRead_write_other (m : Memory) (x y : Nat) (v : Byte) (h : y ≠ x) :
    memRead (memWrite m x v) y = memRead m y := by
  simp [memRead_write, h]

/-- The empty memory is in canonical form. -/
theorem memory_wf_nil : Memory.wf [] := by simp [Memory.wf]

theorem mem_memInsert (m : Memory) (x : Nat) (v : Byte) (c : Host.Cell) :
    c ∈ memInsert m x v ↔ c = (x, v) ∨ c ∈ m := by
  induction m with
  | nil => simp [memInsert]
  | cons d m ih =>
    obtain ⟨a, b⟩ := d
    unfold memInsert
    split_ifs
    · simp only [List.mem_cons, ih]
      tauto
    · simp

/-- Erasing keeps the canonical form. -/
theorem memErase_wf (m : Memory) (x : Nat) (h : Memory.wf m) : Memory.wf (memErase m x) :=
  ⟨h.1.sublist List.filter_sublist, fun c hc => h.2 c (List.mem_filter.mp hc).1⟩

/-- Inserting a cell of a new address and a value that is not blank keeps the canonical form. -/
theorem memInsert_wf (m : Memory) (x : Nat) (v : Byte) (h : Memory.wf m) (hx : ∀ c ∈ m, c.1 ≠ x)
    (hv : v ≠ memBlank) : Memory.wf (memInsert m x v) := by
  induction m with
  | nil => simp [memInsert, Memory.wf, hv]
  | cons d m ih =>
    obtain ⟨a, b⟩ := d
    have hm : Memory.wf m := ⟨h.1.tail, fun c hc => h.2 c (by simp [hc])⟩
    have hlt : ∀ c ∈ m, a < c.1 := fun c hc => List.rel_of_pairwise_cons h.1 hc
    have ih' := ih hm (fun c hc => hx c (by simp [hc]))
    unfold memInsert
    split_ifs with hax
    · refine ⟨List.pairwise_cons.mpr ⟨fun c hc => ?_, ih'.1⟩, fun c hc => ?_⟩
      · rcases (mem_memInsert m x v c).mp hc with rfl | hc
        · exact hax
        · exact hlt c hc
      · rcases List.mem_cons.mp hc with rfl | hc
        · exact h.2 _ (by simp)
        · exact ih'.2 c hc
    · have hxa : x < a := by
        have : a ≠ x := hx (a, b) (by simp)
        omega
      refine ⟨List.pairwise_cons.mpr ⟨fun c hc => ?_, h.1⟩, fun c hc => ?_⟩
      · rcases List.mem_cons.mp hc with rfl | hc
        · exact hxa
        · exact lt_trans hxa (hlt c hc)
      · rcases List.mem_cons.mp hc with rfl | hc
        · exact hv
        · exact h.2 c hc

/-- Writing keeps the canonical form. -/
theorem memWrite_wf (m : Memory) (x : Nat) (v : Byte) (h : Memory.wf m) : Memory.wf (memWrite m x v) := by
  unfold memWrite
  split_ifs with hv
  · exact memErase_wf m x h
  · exact memInsert_wf _ x v (memErase_wf m x h) (memErase_ne m x) hv

end Sys2Proof.Machine
end

