-- ==== Sys2Proof/Laws/Ops.lean ====
section
/-! SUPPORT. What each shared operation and each meaning can do, said once: if it answers a next state, these conditions
held and this is the state. Proofs cite these and leave the definitions folded. -/

namespace Sys2Proof.Machine

/-- `onNext` answers a next state only from a next state. -/
theorem onNext_inv {o : Result} {f : State → State} {t : State} (h : onNext o f = .next t) :
    ∃ u, o = .next u ∧ t = f u := by
  cases o with
  | next u => exact ⟨u, rfl, by simpa [onNext] using h.symm⟩
  | fault r => simp [onNext] at h
  | refused r => simp [onNext] at h

@[simp] theorem onNext_next (u : State) (f : State → State) : onNext (.next u) f = .next (f u) := rfl

@[simp] theorem onNext_refused (r : Refusal) (f : State → State) : onNext (.refused r) f = .refused r := rfl

/-- With the window mapped, an access goes on. -/
theorem overWindow_mapped {s : State} (h : s.handle.isSome = true) (r : Reg) (o : Result) : overWindow s r o = o := by
  obtain ⟨p, hp⟩ := Option.isSome_iff_exists.mp h
  simp [overWindow, regAddr, hp]

/-- With `HANDLE` unset, an access is refused (R91). -/
theorem overWindow_unmapped {s : State} (h : s.handle = none) (r : Reg) (o : Result) :
    overWindow s r o = .refused .handleUnset := by
  simp [overWindow, regAddr, h]

/-- An access answers a next state only with the window mapped. -/
theorem overWindow_inv {s t : State} {r : Reg} {o : Result} (h : overWindow s r o = .next t) :
    s.handle.isSome = true ∧ o = .next t := by
  cases hs : s.handle with
  | none => simp [overWindow_unmapped hs] at h
  | some p => exact ⟨rfl, by rwa [overWindow_mapped (by simp [hs])] at h⟩

theorem execRdCtrl_inv {s t : State} (h : execRdCtrl s = .next t) :
    s.handle.isSome = true ∧ t = readIntoT s .ctrl s.ctrl := by
  obtain ⟨hh, h⟩ := overWindow_inv h
  exact ⟨hh, by cases h; rfl⟩

theorem execWrCtrl_inv {v : Byte} {s t : State} (h : execWrCtrl v s = .next t) :
    s.handle.isSome = true ∧ (s.iface = .core → clearsEnable s.ctrl v = false) ∧
      t = ({ s with ctrl := v } : State).emit (.acc .write .ctrl v) := by
  obtain ⟨hh, h⟩ := overWindow_inv h
  split_ifs at h with hc
  cases h
  exact ⟨hh, fun hi => by simpa [hi] using hc, rfl⟩

theorem execRdStat_inv {s t : State} (h : execRdStat s = .next t) :
    s.handle.isSome = true ∧
      t = ({ s.drawn with regS := (sampleStat s).1 } : State).emit (.acc .read .stat (sampleStat s).1) := by
  obtain ⟨hh, h⟩ := overWindow_inv h
  rw [sampleStat_eq] at h
  exact ⟨hh, by cases h; rfl⟩

theorem execRdFifo_inv {s t : State} (h : execRdFifo s = .next t) :
    s.handle.isSome = true ∧ (s.iface = .core → softwareOwned s.ctrl s.rdeng = true) ∧
      ∃ b rest, s.rxf = b :: rest ∧ t = readIntoT { s with rxf := rest } .fifo b := by
  obtain ⟨hh, h⟩ := overWindow_inv h
  split_ifs at h with hc
  split at h
  · cases h
  · rename_i b rest hr
    refine ⟨hh, fun hi => by simpa [hi] using hc, b, rest, hr, ?_⟩
    cases h
    rfl

theorem execWrFifo_inv {b : Byte} {s t : State} (h : execWrFifo b s = .next t) :
    s.handle.isSome = true ∧
      ((s.iface = .core ∧ softwareOwned s.ctrl s.rdeng = true ∧ s.txf.length ≠ Config.txDepth ∧
          t = ({ s with txf := s.txf ++ [b] } : State).emit (.acc .write .fifo b)) ∨
        (s.iface = .echoDouble ∧ t = ({ s with rxf := s.rxf ++ [b] } : State).emit (.acc .write .fifo b))) := by
  obtain ⟨hh, h⟩ := overWindow_inv h
  refine ⟨hh, ?_⟩
  split at h
  · rename_i hi
    split_ifs at h with ho hd
    cases h
    exact .inl ⟨hi, ho, hd, rfl⟩
  · rename_i hi
    cases h
    exact .inr ⟨hi, rfl⟩

theorem execRdRdeng_inv {s t : State} (h : execRdRdeng s = .next t) :
    s.handle.isSome = true ∧ t = readIntoT s .rdeng s.rdeng := by
  obtain ⟨hh, h⟩ := overWindow_inv h
  exact ⟨hh, by cases h; rfl⟩

theorem execWrRdeng_inv {v : Byte} {s t : State} (h : execWrRdeng v s = .next t) :
    s.handle.isSome = true ∧ t = ({ s with rdeng := v } : State).emit (.acc .write .rdeng v) := by
  obtain ⟨hh, h⟩ := overWindow_inv h
  split_ifs at h with hc
  exact ⟨hh, by cases h; rfl⟩

theorem execRdCs_inv {s t : State} (h : execRdCs s = .next t) :
    s.handle.isSome = true ∧ t = readIntoT s .cs s.cs := by
  obtain ⟨hh, h⟩ := overWindow_inv h
  exact ⟨hh, by cases h; rfl⟩

theorem execWrCs_inv {v : Byte} {s t : State} (h : execWrCs v s = .next t) :
    s.handle.isSome = true ∧ ∃ d, t = ({ s with cs := v, dev := d } : State).emit (.acc .write .cs v) := by
  obtain ⟨hh, h⟩ := overWindow_inv h
  refine ⟨hh, ?_⟩
  split at h
  · split_ifs at h
    obtain ⟨d, hd⟩ := deviceSees_eq { s with cs := v } (.cs (lineOf v))
    rw [hd] at h
    exact ⟨d, by cases h; rfl⟩
  · exact ⟨s.dev, by cases h; rfl⟩

theorem execInit_inv {sel : Option String} {s t : State} (h : execInit sel s = .next t) :
    s.pc = .idle ∧ s.lc = .uninit ∧ t = { s with pc := .iResolve, held := { selector := sel } } := by
  unfold execInit at h
  split_ifs at h with h1 h2
  exact ⟨by simpa using h1, by simpa using h2, by cases h; rfl⟩

theorem execXfer_inv {w r : Nat} {wb rb : Nat} {ctx : Nat} {s t : State} (h : execXfer w r wb rb ctx s = .next t) :
    s.pc = .idle ∧ s.lc = .ready ∧ buffersDisjoint w r wb rb = true ∧
      t = { s with
        pc := .xCsOn, regW := w, regR := r
        held := { w := w, r := r, wbBase := wb, rbBase := rb, ctx := ctx } } := by
  unfold execXfer at h
  split_ifs at h with h1 h2 h3
  exact ⟨by simpa using h1, by simpa using h2, h3, by cases h; rfl⟩

theorem execShutdown_inv {ctx : Nat} {s t : State} (h : execShutdown ctx s = .next t) :
    s.pc = .idle ∧ s.lc ≠ .closed ∧ t = { s with pc := .sGuard, held := { ctx := ctx } } := by
  unfold execShutdown at h
  split_ifs at h with h1 h2
  exact ⟨by simpa using h1, h2, by cases h; rfl⟩

/-- Everything the shift step can do with a byte to send (R100, R101). -/
theorem shiftStep_inv {s t : State} (hp : shiftPoised s = true) (h : shiftStep s = .next t) :
    ∃ mosi rest, s.txf = mosi :: rest ∧ s.rxf.length < Config.rxDepth ∧
      t = ({ (exchange s s.cs0 mosi).2 with
          txf := rest, rxf := s.rxf ++ [(exchange s s.cs0 mosi).1] } : State).emit
        (.xfer s.cs0 mosi (exchange s s.cs0 mosi).1) := by
  unfold shiftStep at h
  split at h
  · rename_i htx
    simp [shiftPoised, htx] at hp
  · rename_i mosi rest htx
    split_ifs at h with hlt
    refine ⟨mosi, rest, htx, hlt, ?_⟩
    cases h
    rfl

/-- An enabled shift step has a byte to send. -/
theorem shiftPoised_of_enabled {s : State} (h : shiftEnabled s = true) : shiftPoised s = true := by
  simp only [shiftEnabled, Bool.and_eq_true] at h
  exact h.1

/-- With nothing in `RXF` a byte to send may go, whatever the depth of at least 1 (R21). -/
theorem shiftEnabled_of_rxf_nil {s : State} (h : s.rxf = []) : shiftEnabled s = shiftPoised s := by
  simp [shiftEnabled, h, Config.rxDepth]

/-- Whether the shift engine has a byte it may send rests on six fields, none of which the choice of agent changes. -/
@[simp] theorem shiftPoised_nextAgent (s : State) : shiftPoised (nextAgent s).2 = shiftPoised s := by
  simp [shiftPoised]

@[simp] theorem cs0_nextAgent (s : State) : (nextAgent s).2.cs0 = s.cs0 := by
  simp [State.cs0]

end Sys2Proof.Machine
end

