-- ==== Sys2Proof/Laws/Step.lean ====
section
/-! SUPPORT. Everything a step can do, said once, and the composition of runs. -/

namespace Sys2Proof.Machine

/-- A step is the shift engine's or the sequencer's, as the choice falls, where the shift step is enabled, and the
sequencer's where the engine has no byte it may send; a machine that is stuck takes none. -/
theorem step_cases {s t : State} (h : step s = .next t) :
    (shiftEnabled s = true ∧ (nextAgent s).1 = .shift ∧ shiftStep (nextAgent s).2 = .next t) ∨
      (shiftEnabled s = true ∧ (nextAgent s).1 = .seq ∧ seqStep (nextAgent s).2 = .next t) ∨
      (shiftPoised s = false ∧ stuck s = false ∧ seqStep s = .next t) := by
  unfold step agentStep at h
  split_ifs at h with hst hb hp
  · have he : shiftEnabled s = true := by simpa [shiftBlocked, hp] using hb
    split at h
    · exact .inl ⟨he, ‹_›, h⟩
    · exact .inr (.inl ⟨he, ‹_›, h⟩)
  · exact .inr (.inr ⟨by simpa using hp, by simpa using hst, h⟩)

/-- A stuck machine takes no step (R179 c). -/
theorem step_stuck {s : State} (h : stuck s = true) : step s = .fault .stuck := by
  simp [step, agentStep, h]

/-- With a byte to send and `RXF` full the machine is refused, whoever would move (R101). -/
theorem step_blocked {s : State} (hp : shiftPoised s = true) (hr : Config.rxDepth ≤ s.rxf.length) :
    step s = .refused .rxfFull := by
  have hne : s.rxf ≠ [] := by
    rintro h
    simp [h, Config.rxDepth] at hr
  simp [step, agentStep, stuck, shiftBlocked, shiftEnabled, hp, hr, hne]

/-- Where the shift step is enabled, the one whose turn it is moves (R51). -/
theorem step_enabled {s : State} (h : shiftEnabled s = true) :
    step s = match (nextAgent s).1 with
      | .shift => shiftStep (nextAgent s).2
      | .seq => seqStep (nextAgent s).2 := by
  cases ha : (nextAgent s).1 <;>
    simp [step, agentStep, stuck, shiftBlocked, h, shiftPoised_of_enabled h, ha]

/-- A step where the shift engine has nothing it may send is the sequencer's, unless the machine is stuck. -/
theorem step_unpoised {s : State} (h : shiftPoised s = false) (hs : stuck s = false) : step s = seqStep s := by
  simp [step, agentStep, shiftBlocked, h, hs]

/-- Away from the two poll micro-states the machine is not stuck. -/
theorem stuck_of_not_poll {s : State} (h : isPollState s.pc = false) : stuck s = false := by
  simp [stuck, h]

/-- With a received byte there the machine is not stuck. -/
theorem stuck_of_rxf {s : State} (h : s.rxf ≠ []) : stuck s = false := by
  simp [stuck, h]

/-- In a disciplined state a byte awaited and not received is in `TXF`, and the shift step is enabled (R150, R209). -/
theorem disciplined_poll_enabled {s : State} (h : Disciplined s) (hp : isPollState s.pc = true) (hr : s.rxf = []) :
    shiftEnabled s = true := by
  obtain ⟨-, hd, hf, -, hl⟩ := h
  have hx : isXferState s.pc = true ∧ s.txf.length + s.rxf.length = 1 := by
    unfold fifoShape at hf
    cases hq : s.pc <;> simp_all [isPollState, isXferState]
  have ht : s.txf ≠ [] := fun e => by simp [e, hr] at hx
  have hi : s.iface = .core := by
    cases hq : s.iface with
    | core => rfl
    | echoDouble => exact absurd (hd hq) ht
  rw [shiftEnabled_of_rxf_nil hr]
  simp [shiftPoised, hi, (hl.2.2.2.1 (hl.2.1 hx.1)).2, ht]

/-- A disciplined machine is never stuck. -/
theorem disciplined_not_stuck {s : State} (h : Disciplined s) : stuck s = false := by
  cases hp : isPollState s.pc with
  | false => exact stuck_of_not_poll hp
  | true =>
    by_cases hr : s.rxf = []
    · simp [stuck, disciplined_poll_enabled h hp hr]
    · exact stuck_of_rxf hr

/-- A step of the sequencer or its host (R33, R63, R220): waiting, a request executed, an access of the micro-program
with what follows it, or a micro-state that performs no access. -/
theorem seqStep_cases {s t : State} (h : seqStep s = .next t) :
    (s.pc = .idle ∧ s.requests = [] ∧ t = s) ∨
      (s.pc = .idle ∧ ∃ c rest i, s.requests = c :: rest ∧ decode c = .ok i ∧ secondWriter s i = false ∧
        exec i { s with requests := rest } = .next t) ∨
      (s.pc ≠ .idle ∧ ∃ i s1 u, issue s = some (i, s1) ∧ exec i s1 = .next u ∧ t = follow s.pc u) ∨
      (s.pc ≠ .idle ∧ issue s = none ∧ t = microHost s) := by
  unfold seqStep at h
  split_ifs at h with hpc
  · unfold hostStep at h
    split at h
    · exact .inl ⟨hpc, ‹_›, by cases h; rfl⟩
    · rename_i c rest hr
      split at h
      · cases h
      · rename_i i hd
        split_ifs at h with hw
        exact .inr (.inl ⟨hpc, c, rest, i, hr, hd, by simpa using hw, h⟩)
  · unfold microStep at h
    split at h
    · rename_i i s1 hi
      obtain ⟨u, hu, ht⟩ := onNext_inv h
      exact .inr (.inr (.inl ⟨hpc, i, s1, u, hi, hu, ht⟩))
    · exact .inr (.inr (.inr ⟨hpc, ‹_›, by cases h; rfl⟩))

/-- What decodes from an access word is a register access (R61). -/
theorem isAccess_of_decode {word : BitVec 16} {i : Instr} (h : decode (.ra16 word) = .ok i) : isAccess i = true := by
  simp only [decode, decodeAccess] at h
  split_ifs at h
  all_goals
    cases h
    generalize Reg.atOff _ = r
    cases r <;> rfl

/-- The host's step for a request that decodes (R63, R92, R214, R215): refused as a second writer's, or executed. -/
theorem seqStep_request {s : State} {c : Code} {rest : List Code} {i : Instr} (hpc : s.pc = .idle)
    (hr : s.requests = c :: rest) (hd : decode c = .ok i) :
    seqStep s = if secondWriter s i then .refused .secondWriter else exec i { s with requests := rest } := by
  simp [seqStep, hpc, hostStep, hr, hd]

/-- A micro-step that performs an access: the access, then what follows it. -/
theorem seqStep_issue {s s1 u : State} {i : Instr} (hpc : s.pc ≠ .idle) (hi : issue s = some (i, s1))
    (hu : exec i s1 = .next u) : seqStep s = .next (follow s.pc u) := by
  simp [seqStep, hpc, microStep, hi, hu]

/-- A micro-step that performs no access. -/
theorem seqStep_host {s : State} (hpc : s.pc ≠ .idle) (hi : issue s = none) : seqStep s = .next (microHost s) := by
  simp [seqStep, hpc, microStep, hi]

/-! ### Runs -/

/-- One step of the host's run, where it answers a next state. -/
theorem host_run_next (M : Host.Core) {n : Nat} {s t : M.State} (h : M.step s = .next t) :
    M.run (n + 1) s = M.run n t := by
  rw [Host.Core.run, h]

/-- One step of the host's run, where it is refused. -/
theorem host_run_refused (M : Host.Core) {n : Nat} {s : M.State} {r : M.Refusal} (h : M.step s = .refused r) :
    M.run (n + 1) s = .refused r := by
  rw [Host.Core.run, h]

/-- One step of the host's run, where it faults. -/
theorem host_run_fault (M : Host.Core) {n : Nat} {s : M.State} {r : M.Fault} (h : M.step s = .fault r) :
    M.run (n + 1) s = .fault r := by
  rw [Host.Core.run, h]

/-- `run` is the host's run of the machine. -/
theorem run_eq_core (n : Nat) (s : State) : core.run n s = run n s := by
  induction n generalizing s with
  | zero => rfl
  | succ n ih =>
    unfold run
    cases hs : step s with
    | next t => exact (host_run_next core hs).trans (ih t)
    | fault r => exact host_run_fault core hs
    | refused r => exact host_run_refused core hs

@[simp] theorem run_zero (s : State) : run 0 s = .next s := rfl

theorem run_succ {s t : State} (h : step s = .next t) (n : Nat) : run (n + 1) s = run n t := by
  simp [run, h]

/-- The first step of a run that answers a next state. -/
theorem run_succ_inv {n : Nat} {s t : State} (h : run (n + 1) s = .next t) :
    ∃ u, step s = .next u ∧ run n u = .next t := by
  unfold run at h
  split at h
  · exact ⟨_, ‹_›, h⟩
  · cases h
  · cases h

/-- Runs compose. -/
theorem run_add {m n : Nat} {s t : State} (h : run m s = .next t) : run (m + n) s = run n t := by
  induction m generalizing s with
  | zero =>
    have hst : s = t := by simpa using h
    rw [hst, Nat.zero_add]
  | succ m ih =>
    obtain ⟨u, hu, h⟩ := run_succ_inv h
    rw [Nat.succ_add, run_succ hu, ih h]

/-- What every step keeps, every run keeps. -/
theorem run_keeps {P : State → Prop} (hP : ∀ s t, P s → step s = .next t → P t) {n : Nat} {s t : State}
    (hs : P s) (h : run n s = .next t) : P t := by
  induction n generalizing s with
  | zero =>
    have hst : s = t := by simpa using h
    rwa [← hst]
  | succ n ih =>
    obtain ⟨u, hu, h⟩ := run_succ_inv h
    exact ih (hP s u hs hu) h

end Sys2Proof.Machine
end

