-- ==== Sys2Proof/Laws/Micro.lean ====
section
/-! SUPPORT. Every micro-step of the three micro-programs as one update of the state, so that no later proof unfolds a
micro-state: what a micro-step can be when it answers a next state, what the shift engine's step can be, and the
accesses that go through. -/

namespace Sys2Proof.Machine

/-! ### Accesses that go through -/

/-- `RD STAT` over a mapped window. -/
theorem execRdStat_ok {s : State} (h : s.handle.isSome = true) :
    execRdStat s = .next { s with
      regS := (sampleStat s).1, draws := s.draws + 1, trace := s.trace ++ [.acc .read .stat (sampleStat s).1] } := by
  simp [execRdStat, overWindow_mapped h, sampleStat_eq, State.emit, State.drawn]

/-- `RD FIFO` with a byte there. -/
theorem execRdFifo_ok {s : State} (h : s.handle.isSome = true)
    (ho : s.iface = .core → softwareOwned s.ctrl s.rdeng = true) {b : Byte} {rest : List Byte} (hr : s.rxf = b ::
      rest) :
    execRdFifo s = .next { s with rxf := rest, regT := b, trace := s.trace ++ [.acc .read .fifo b] } := by
  have : ¬((s.iface = .core && !softwareOwned s.ctrl s.rdeng) = true) := by
    simp
    exact ho
  simp only [execRdFifo, overWindow_mapped h, if_neg this, hr, readIntoT, State.emit]

/-- `WR CS` of one of the three patterns: the byte is stored, and behind the core the device is told (R89, R104). -/
theorem execWrCs_ok {s : State} (h : s.handle.isSome = true) {v : Byte} (hv : isCsPattern v = true) :
    execWrCs v s = .next { s with
      cs := v
      dev := match s.iface with
        | .core => (deviceSees s (.cs (lineOf v))).dev
        | .echoDouble => s.dev
      trace := s.trace ++ [.acc .write .cs v] } := by
  cases hi : s.iface with
  | core =>
    simp only [execWrCs, overWindow_mapped h, hi, hv, if_true]
    cases hd : s.dev <;> simp [deviceSees, hd, State.emit]
  | echoDouble => simp [execWrCs, overWindow_mapped h, hi, State.emit]

/-! ### The shift engine's step -/

/-- The shift engine's step where the choice fell on it, as one update of the state before the choice. -/
theorem shiftStep_fields {s t : State} (hp : shiftPoised s = true) (h : shiftStep (nextAgent s).2 = .next t) :
    ∃ mosi miso rest dev sch dr, s.txf = mosi :: rest ∧ s.rxf.length < Config.rxDepth ∧
      t = { s with
        txf := rest, rxf := s.rxf ++ [miso], dev := dev, sched := sch, draws := dr
        trace := s.trace ++ [.xfer s.cs0 mosi miso] } := by
  obtain ⟨mosi, rest, htx, hlt, ht⟩ := shiftStep_inv (by simpa using hp) h
  obtain ⟨d, n, he⟩ := exchange_eq (nextAgent s).2 (nextAgent s).2.cs0 mosi
  obtain ⟨sc, dr, hn⟩ := nextAgent_eq s
  refine ⟨mosi, (exchange (nextAgent s).2 (nextAgent s).2.cs0 mosi).1, rest, d, sc, n, ?_, ?_, ?_⟩
  · simpa using htx
  · simpa using hlt
  · rw [ht, he]
    simp [State.emit, hn, State.cs0]

/-- The shift engine's turn with a byte to send, `RXF` empty and the echo device selected. -/
theorem shiftStep_echo {s : State} {b : Byte} (ht : s.txf = [b]) (hr : s.rxf = []) (hd : s.dev = .echo)
    (hc : s.cs0 = .asserted) :
    shiftStep s = .next { s with txf := [], rxf := [b], trace := s.trace ++ [.xfer .asserted b b] } := by
  simp only [shiftStep, ht, hr, hc, exchange, hd, List.length_nil]
  rw [if_pos (by simp [Config.rxDepth])]
  rfl

/-! ### The sequencer's micro-steps -/

/-- What follows the pop of `X_WPOP`, as one update. -/
theorem afterXWPop_eq (u : State) :
    afterXWPop u = { u with
      regI := if u.regI + 1 < u.regW then u.regI + 1 else 0
      pc := if u.regI + 1 < u.regW then .xWPush else if 0 < u.regR then .xRPush else .xCsOff } := by
  unfold afterXWPop countUp State.goto readPhaseEntry
  by_cases h : u.regI + 1 < u.regW
  · rw [if_pos h, if_pos h, if_pos h]
  · rw [if_neg h, if_neg h, if_neg h]

/-- A read that lands in `T`, and the next micro-state. -/
def ReadsIntoT (s t : State) (r : Reg) (v : Byte) (p : MicroState) : Prop :=
  t = { s with regT := v, pc := p, trace := s.trace ++ [.acc .read r v] }

/-- A status sample, and the next micro-state by whether `RXF` is empty. -/
def Polls (s t : State) (ifEmpty ifNot : MicroState) : Prop :=
  ∃ b, t = { s with
    regS := b, draws := s.draws + 1, pc := if s.rxf = [] then ifEmpty else ifNot
    trace := s.trace ++ [.acc .read .stat b] }

/-- A push of the outbound byte, behind the core into `TXF`, behind the echo double into `RXF`. -/
def Pushes (s t : State) (p : MicroState) : Prop :=
  ∃ b n, b = (outboundByte s).1 ∧
    ((s.iface = .core ∧ s.txf.length ≠ Config.txDepth ∧ t = { s with
        txf := s.txf ++ [b], draws := n, pc := p, trace := s.trace ++ [.acc .write .fifo b] }) ∨
      (s.iface = .echoDouble ∧ t = { s with
        rxf := s.rxf ++ [b], draws := n, pc := p, trace := s.trace ++ [.acc .write .fifo b] }))

/-- What a micro-step from `s` to `t` is, by micro-state. -/
def MicroUpdate (s t : State) : Prop :=
  match s.pc with
  | .idle => False
  | .iResolve => t = microIResolve s
  | .iProbe => s.handle.isSome = true ∧ t = afterIProbe (readIntoT s .rdeng s.rdeng)
  | .iHook => t = microIHook s
  | .iCsIdle => s.handle.isSome = true ∧ ∃ d, t = { s with
      cs := Config.csDeassert, dev := d, pc := .iCtrlRd
      trace := s.trace ++ [.acc .write .cs Config.csDeassert] }
  | .iCtrlRd => s.handle.isSome = true ∧ ReadsIntoT s t .ctrl s.ctrl .iCtrlWr
  | .iCtrlWr => s.handle.isSome = true ∧ t = { s with
      ctrl := setBits s.regT enableMask, pc := .iReRd
      trace := s.trace ++ [.acc .write .ctrl (setBits s.regT enableMask)] }
  | .iReRd => s.handle.isSome = true ∧ ReadsIntoT s t .rdeng s.rdeng .iReWr
  | .iReWr => s.handle.isSome = true ∧ t = { s with
      rdeng := clearBits s.regT readEngineMask, pc := .iDrainPoll
      trace := s.trace ++ [.acc .write .rdeng (clearBits s.regT readEngineMask)] }
  | .iDrainPoll => s.handle.isSome = true ∧ Polls s t .iRegister .iDrainPop
  | .iDrainPop => s.handle.isSome = true ∧ ∃ b rest, s.rxf = b :: rest ∧
      ReadsIntoT { s with rxf := rest } t .fifo b .iDrainPoll
  | .iRegister => t = microIRegister s
  | .xCsOn => s.handle.isSome = true ∧ ∃ d, t = { s with
      regI := 0, cs := Config.csAssert, dev := d
      pc := if 0 < s.regW then .xWPush else if 0 < s.regR then .xRPush else .xCsOff
      trace := s.trace ++ [.acc .write .cs Config.csAssert] }
  | .xWPush => s.handle.isSome = true ∧ Pushes s t .xWPoll
  | .xWPoll => s.handle.isSome = true ∧ Polls s t .xWPoll .xWPop
  | .xWPop => s.handle.isSome = true ∧ ∃ b rest, s.rxf = b :: rest ∧ t = { s with
      rxf := rest, regT := b, regI := if s.regI + 1 < s.regW then s.regI + 1 else 0
      pc := if s.regI + 1 < s.regW then .xWPush else if 0 < s.regR then .xRPush else .xCsOff
      trace := s.trace ++ [.acc .read .fifo b] }
  | .xRPush => s.handle.isSome = true ∧ Pushes s t .xRPoll
  | .xRPoll => s.handle.isSome = true ∧ Polls s t .xRPoll .xRPop
  | .xRPop => s.handle.isSome = true ∧ ∃ b rest, s.rxf = b :: rest ∧ t = { s with
      rxf := rest, regT := b, regI := s.regI + 1, mem := memWrite s.mem (s.held.rbBase + s.regI) b
      pc := if s.regI + 1 < s.regR then .xRPush else .xCsOff
      trace := s.trace ++ [.acc .read .fifo b] }
  | .xCsOff => s.handle.isSome = true ∧ ∃ d, t = { s with
      cs := Config.csDeassert, dev := d, pc := .idle, held := {}
      trace := s.trace ++ [.acc .write .cs Config.csDeassert, .done .xfer none] }
  | .sGuard => t = microSGuard s
  | .sCs0 => s.handle.isSome = true ∧ ∃ d, t = { s with
      cs := Config.csClear, dev := d, pc := .sReRd, trace := s.trace ++ [.acc .write .cs Config.csClear] }
  | .sReRd => s.handle.isSome = true ∧ ReadsIntoT s t .rdeng s.rdeng .sReWr
  | .sReWr => s.handle.isSome = true ∧ t = { s with
      rdeng := setBits s.regT readEngineMask, pc := .idle, lc := .closed, regST := .ok, held := {}
      trace := s.trace ++
        [.acc .write .rdeng (setBits s.regT readEngineMask), .done .shutdown (some .ok)] }

/-- The push of `X_WPUSH` and `X_RPUSH`. -/
theorem pushes_inv {s u : State} {p : MicroState}
    (hu : execWrFifo (outboundByte s).1 (outboundByte s).2 = .next u) :
    s.handle.isSome = true ∧ Pushes s (u.goto p) p := by
  obtain ⟨n, hn⟩ := outboundByte_eq s
  obtain ⟨hh, ⟨hc, _, hd, rfl⟩ | ⟨hc, rfl⟩⟩ := execWrFifo_inv hu
  · rw [hn] at hh hc hd
    exact ⟨hh, _, n, rfl, .inl ⟨hc, hd, by simp [State.goto, State.emit, hn]⟩⟩
  · rw [hn] at hh hc
    exact ⟨hh, _, n, rfl, .inr ⟨hc, by simp [State.goto, State.emit, hn]⟩⟩

/-- The sample of the three poll micro-states. -/
theorem polls_inv {s u : State} {p q : MicroState} (hu : execRdStat s = .next u) :
    s.handle.isSome = true ∧ Polls s (u.goto (if bit u.regS Config.pRfe then p else q)) p q := by
  obtain ⟨hh, rfl⟩ := execRdStat_inv hu
  refine ⟨hh, (sampleStat s).1, ?_⟩
  simp only [State.goto, State.emit, State.drawn, sampleStat_rfe, decide_eq_true_eq]

/-- Every micro-step, as one update of the state, where it answers a next state. -/
theorem microStep_inv {s t : State} (hpc : s.pc ≠ .idle) (h : seqStep s = .next t) : MicroUpdate s t := by
  unfold MicroUpdate
  rcases seqStep_cases h with ⟨hp, _, _⟩ | ⟨hp, _⟩ | ⟨_, i, s1, u, hi, hu, rfl⟩ | ⟨_, hi, rfl⟩
  · exact absurd hp hpc
  · exact absurd hp hpc
  · cases hp : s.pc <;> simp only [issue, hp, reduceCtorEq, Option.some.injEq, Prod.mk.injEq] at hi <;>
      obtain ⟨rfl, rfl⟩ := hi <;> simp only [csOn, csOff, csClr, exec] at hu <;> simp only [follow]
    · obtain ⟨hh, rfl⟩ := execRdRdeng_inv hu
      exact ⟨hh, rfl⟩
    · obtain ⟨hh, d, rfl⟩ := execWrCs_inv hu
      exact ⟨hh, d, rfl⟩
    · obtain ⟨hh, rfl⟩ := execRdCtrl_inv hu
      exact ⟨hh, rfl⟩
    · obtain ⟨hh, _, rfl⟩ := execWrCtrl_inv hu
      exact ⟨hh, rfl⟩
    · obtain ⟨hh, rfl⟩ := execRdRdeng_inv hu
      exact ⟨hh, rfl⟩
    · obtain ⟨hh, rfl⟩ := execWrRdeng_inv hu
      exact ⟨hh, rfl⟩
    · exact polls_inv hu
    · obtain ⟨hh, _, b, rest, hr, rfl⟩ := execRdFifo_inv hu
      exact ⟨hh, b, rest, hr, rfl⟩
    · obtain ⟨hh, d, rfl⟩ := execWrCs_inv hu
      exact ⟨hh, d, rfl⟩
    · exact pushes_inv hu
    · exact polls_inv hu
    · obtain ⟨hh, _, b, rest, hr, rfl⟩ := execRdFifo_inv hu
      exact ⟨hh, b, rest, hr, by rw [afterXWPop_eq]; rfl⟩
    · exact pushes_inv hu
    · exact polls_inv hu
    · obtain ⟨hh, _, b, rest, hr, rfl⟩ := execRdFifo_inv hu
      exact ⟨hh, b, rest, hr, rfl⟩
    · obtain ⟨hh, d, rfl⟩ := execWrCs_inv hu
      exact ⟨hh, d, by simp [afterXCsOff, endCommand, State.emit]⟩
    · obtain ⟨hh, d, rfl⟩ := execWrCs_inv hu
      exact ⟨hh, d, rfl⟩
    · obtain ⟨hh, rfl⟩ := execRdRdeng_inv hu
      exact ⟨hh, rfl⟩
    · obtain ⟨hh, rfl⟩ := execWrRdeng_inv hu
      exact ⟨hh, by simp [afterSReWr, endShutdown, endCommand, State.emit]⟩
  · cases hp : s.pc <;> simp [issue, hp] at hi hpc <;> simp [microHost, hp]

end Sys2Proof.Machine
end

