-- ==== Sys2Proof/Laws/PerInstr.lean ====
section
/-! SUPPORT. The per-instruction family `UnreservedCode`: the code of an instruction is no reserved encoding (R66 a,
R67): an access word has `Z = 0000`, a command code is one of 0x01, 0x02, 0x03. -/

namespace Sys2Proof.Laws.UnreservedCode

/-- The code of the instruction is no reserved encoding. -/
def Statement (i : Instr) : Prop :=
  match encode i with
  | .ra16 word => word.extractLsb' 11 4 = 0#4
  | .sc8 op _ => op = 0x01#8 ∨ op = 0x02#8 ∨ op = 0x03#8

theorem accessWord_z (d : Dir) (r : Reg) (v : Byte) : (accessWord d r v).extractLsb' 11 4 = 0#4 := by
  cases d <;> cases r <;> revert v <;> decide

theorem rdCtrl : Statement .rdCtrl := accessWord_z .read .ctrl 0
theorem wrCtrl (v : Byte) : Statement (.wrCtrl v) := accessWord_z .write .ctrl v
theorem rdStat : Statement .rdStat := accessWord_z .read .stat 0
theorem wrStat (v : Byte) : Statement (.wrStat v) := accessWord_z .write .stat v
theorem rdFifo : Statement .rdFifo := accessWord_z .read .fifo 0
theorem wrFifo (v : Byte) : Statement (.wrFifo v) := accessWord_z .write .fifo v
theorem rdRsva : Statement .rdRsva := accessWord_z .read .rsva 0
theorem wrRsva (v : Byte) : Statement (.wrRsva v) := accessWord_z .write .rsva v
theorem rdRdeng : Statement .rdRdeng := accessWord_z .read .rdeng 0
theorem wrRdeng (v : Byte) : Statement (.wrRdeng v) := accessWord_z .write .rdeng v
theorem rdCs : Statement .rdCs := accessWord_z .read .cs 0
theorem wrCs (v : Byte) : Statement (.wrCs v) := accessWord_z .write .cs v
theorem rdRsvb : Statement .rdRsvb := accessWord_z .read .rsvb 0
theorem wrRsvb (v : Byte) : Statement (.wrRsvb v) := accessWord_z .write .rsvb v
theorem rdRsv7 : Statement .rdRsv7 := accessWord_z .read .rsv7 0
theorem wrRsv7 (v : Byte) : Statement (.wrRsv7 v) := accessWord_z .write .rsv7 v
theorem init (selector : Option String) : Statement (.init selector) := .inl rfl
theorem xfer (w r : Nat) (wbBase rbBase : Nat) (ctx : Nat) : Statement (.xfer w r wbBase rbBase ctx) := .inr (.inl rfl)
theorem shutdown (ctx : Nat) : Statement (.shutdown ctx) := .inr (.inr rfl)

end Sys2Proof.Laws.UnreservedCode
end

