-- ==== Sys2Proof/Tests/Slice0.lean ====
section
/-! SUPPORT. Tests of the model against the worked examples and derived vectors of spec/95_test_vectors.md (cited by their
ids), and for every obligation with hypotheses a witness that meets them. -/

namespace Sys2Proof.Tests

open Sys2Proof.Machine

/-! ### Small states -/

/-- Reset with the window mapped. -/
def mapped : State := { State.reset with handle := some 0x1000 }

/-- The software-controlled core of the vectors ("SC": `CTRL = 0xDF`, `RDENG = 0xF2`), line de-asserted. -/
def sc : State := { mapped with ctrl := 0xDF, rdeng := 0xF2, cs := 0x11 }

/-- The same, ready for a transaction. -/
def ready : State := { sc with lc := .ready }

/-- Inside a transaction at a micro-state. -/
def inXfer (p : MicroState) : State := { ready with pc := p, cs := 0x01, regW := 2, regR := 2 }

/-- Behind the echo double, ready for a transaction. -/
def double : State := { ready with iface := .echoDouble }

/-- The answer is a next state that passes a test. -/
def after (o : Result) (p : State → Bool) : Bool :=
  match o with
  | .next t => p t
  | _ => false

/-- The answer is a refusal. -/
def stops (o : Result) (r : Refusal) : Bool :=
  match o with
  | .refused q => q = r
  | _ => false

/-! ### Decoding: words written out from R60, R61, R63 (V 2.1) -/

theorem test_decode_rdCtrl : decode (.ra16 0b0000000000000000#16) = .ok .rdCtrl := by decide
theorem test_decode_wrCtrl : decode (.ra16 0b1000000011011111#16) = .ok (.wrCtrl 0xDF) := by decide
theorem test_decode_rdStat : decode (.ra16 0b0000000100000000#16) = .ok .rdStat := by decide
theorem test_decode_rdStat_ignores_data : decode (.ra16 0x01FF#16) = .ok .rdStat := by decide
theorem test_decode_wrStat : decode (.ra16 0b1000000111000000#16) = .ok (.wrStat 0xC0) := by decide
theorem test_decode_rdFifo : decode (.ra16 0b0000001000000000#16) = .ok .rdFifo := by decide
theorem test_decode_wrFifo : decode (.ra16 0b1000001010011111#16) = .ok (.wrFifo 0x9F) := by decide
theorem test_decode_rdRsva : decode (.ra16 0b0000001100000000#16) = .ok .rdRsva := by decide
theorem test_decode_wrRsva : decode (.ra16 0b1000001100000000#16) = .ok (.wrRsva 0x00) := by decide
theorem test_decode_rdRdeng : decode (.ra16 0b0000010000000000#16) = .ok .rdRdeng := by decide
theorem test_decode_wrRdeng : decode (.ra16 0b1000010011110010#16) = .ok (.wrRdeng 0xF2) := by decide
theorem test_decode_rdCs : decode (.ra16 0b0000010100000000#16) = .ok .rdCs := by decide
theorem test_decode_wrCs : decode (.ra16 0b1000010100010001#16) = .ok (.wrCs 0x11) := by decide
theorem test_decode_rdRsvb : decode (.ra16 0b0000011000000000#16) = .ok .rdRsvb := by decide
theorem test_decode_wrRsvb : decode (.ra16 0b1000011010101010#16) = .ok (.wrRsvb 0xAA) := by decide
theorem test_decode_rdRsv7 : decode (.ra16 0b0000011100000000#16) = .ok .rdRsv7 := by decide
theorem test_decode_wrRsv7 : decode (.ra16 0b1000011100000000#16) = .ok (.wrRsv7 0x00) := by decide
theorem test_decode_init : decode (.sc8 0b00000001#8 { selector := some "3a4000" }) = .ok (.init (some "3a4000")) := by
  decide
theorem test_decode_xfer : decode (.sc8 0b00000010#8 { w := 1, r := 3, wbBase := 16, rbBase := 32, ctx := 7 }) =
    .ok (.xfer 1 3 16 32 7) := by decide
theorem test_decode_shutdown : decode (.sc8 0b00000011#8 { ctx := 7 }) = .ok (.shutdown 7) := by decide

/-- V 2.1: the reserved access words. -/
theorem test_decode_reserved_words :
    [0x0800#16, 0x4100#16, 0xC200#16, 0xFFFF#16, 0x7800#16].all
      (fun w => decide (decode (.ra16 w) = .error .reservedZ)) = true := by decide

/-- V 2.1: the reserved command codes. -/
theorem test_decode_reserved_commands :
    [0x00#8, 0x04#8, 0x80#8, 0xFF#8].all (fun c => decide (decode (.sc8 c {}) = .error .reservedOp)) = true := by
  decide

/-- The codes of the table, as the host numbers their bits. -/
theorem test_decodeTableWord : decodeTableWord 16 0x829F = some (.wrFifo 0x9F) ∧
    decodeTableWord 8 0x02 = some (.xfer 0 0 0 0 0) ∧ decodeTableWord 8 0x04 = none ∧
    decodeTableWord 16 0x0800 = none := by decide

/-! ### Well-formedness (R34) -/

/-- An `XFER` whose inbound buffer starts on the last outbound byte is ill-formed. -/
theorem test_wf_overlap : (Instr.xfer 4 2 16 19 0).wfError = some .buffersOverlap := by decide
/-- Neighbouring buffers, and an empty one inside the other, are well-formed. -/
theorem test_wf_disjoint : (Instr.xfer 4 2 16 20 0).wf = true ∧ (Instr.xfer 4 0 16 17 0).wf = true ∧
    Instr.rdCs.wf = true := by decide

/-! ### Register access (V-A1 to V-A34) -/

/-- V-A1. -/
theorem test_rdCtrl : after (exec .rdCtrl { mapped with ctrl := 0x8F })
    (fun t => t.regT = 0x8F && t.trace = [.acc .read .ctrl 0x8F]) = true := by decide
/-- V-A2. -/
theorem test_wrCtrl : after (exec (.wrCtrl 0xDF) { mapped with ctrl := 0x8F }) (fun t => t.ctrl = 0xDF) = true := by
  decide
/-- V-A5. -/
theorem test_wrCtrl_clears_spe : stops (exec (.wrCtrl 0x9F) { mapped with ctrl := 0xDF }) .clearsEnable = true := by
  decide
/-- V-A12. -/
theorem test_wrStat : stops (exec (.wrStat 0xC0) sc) .statusWrite = true := by decide
/-- V-A6 to V-A10: the low nibble of the status byte, at depth 4 and at depth 1. -/
theorem test_status_nibble : statByte 4 4 0 0 0xF0 &&& 0x0F = 0x05 ∧ statByte 4 4 0 1 0xF0 &&& 0x0F = 0x01 ∧
    statByte 4 4 1 0 0xF0 &&& 0x0F = 0x04 ∧ statByte 4 4 4 0 0xF0 &&& 0x0F = 0x06 ∧
    statByte 1 1 1 0 0xF0 &&& 0x0F = 0x06 := by decide
/-- V-A11, R13: bits 7 to 4 are the draw's, bits 3 to 0 never are. -/
theorem test_status_draw : statByte 4 4 0 0 0xAF = 0xA5 ∧ statByte 4 4 0 0 0x5A = 0x55 := by decide
/-- V-A13. -/
theorem test_wrFifo : ∃ t, exec (.wrFifo 0x9F) sc = .next t ∧ t.txf = [0x9F] := by
  exact ⟨_, rfl, rfl⟩
/-- V-A15. -/
theorem test_wrFifo_engine_on : stops (exec (.wrFifo 0x9F) { sc with rdeng := 0xF3 }) .notEnabled = true := by decide
/-- V-A18: oldest first. -/
theorem test_rdFifo : after (exec .rdFifo { sc with rxf := [0xEF, 0x40] })
    (fun t => t.regT = 0xEF && t.rxf = [0x40]) = true := by decide
/-- V-A20. -/
theorem test_rdFifo_empty : stops (exec .rdFifo sc) .rxfEmpty = true := by decide
/-- V-A22. -/
theorem test_rdRdeng : after (exec .rdRdeng { mapped with rdeng := 0xF3 }) (fun t => t.regT = 0xF3) = true := by decide
/-- V-A25. -/
theorem test_wrRdeng : after (exec (.wrRdeng 0xF3) sc) (fun t => t.rdeng = 0xF3) = true := by decide
/-- V-A27. -/
theorem test_wrRdeng_asserted : stops (exec (.wrRdeng 0xF3) { sc with cs := 0x01 }) .engineWhileBusy = true := by decide
/-- V-A28. -/
theorem test_rdCs : after (exec .rdCs sc) (fun t => t.regT = 0x11) = true := by decide
/-- V-A29 to V-A31. -/
theorem test_wrCs : after (exec (.wrCs 0x01) { sc with cs := 0xA4 }) (fun t => t.cs0 = .asserted) = true ∧
    after (exec (.wrCs 0x11) { sc with cs := 0x01 }) (fun t => t.cs0 = .deasserted) = true ∧
    after (exec (.wrCs 0x00) sc) (fun t => t.cs = 0x00 && t.cs0 = .hw) = true := by decide
/-- V-A32. -/
theorem test_wrCs_pattern : stops (exec (.wrCs 0x10) sc) .csPattern = true := by decide
/-- V-A33. -/
theorem test_reserved_offsets : stops (exec .rdRsva sc) .reservedOffset = true ∧
    stops (exec (.wrRsv7 0x00) sc) .reservedOffset = true := by decide
/-- V-A34. -/
theorem test_handle_unset : stops (exec .rdCtrl State.reset) .handleUnset = true := by decide

/-! ### Shift engine (V-H1 to V-H7) -/

/-- V-H2. -/
theorem test_shift_echo : ∃ t, shiftStep { sc with cs := 0x01, txf := [0xAB], dev := .echo } = .next t ∧
    t.rxf = [0xAB] ∧ t.txf = [] ∧ t.trace = [.xfer .asserted 0xAB 0xAB] := ⟨_, rfl, rfl, rfl, rfl⟩
/-- V-H3, V-H4, V-H5. -/
theorem test_shift_waits : shiftPoised sc = false ∧ shiftPoised { sc with rdeng := 0xF3, txf := [0x55] } = false ∧
    shiftPoised { sc with ctrl := 0x9F, txf := [0x55] } = false := by decide

/-! ### Micro-steps (V 2.4, V-X) -/

/-- V 2.4: the read-modify-write results. -/
theorem test_rmw : setBits 0xAF enableMask = 0xFF ∧ setBits 0x10 enableMask = 0x50 ∧
    clearBits 0xF3 readEngineMask = 0xF2 ∧ setBits 0xFE readEngineMask = 0xFF := by decide
/-- V-I3: an unknown selector, reported with no call to the host. -/
theorem test_resolve_unknown : after (seqStep { State.reset with pc := .iResolve, held := { selector := some "unknown9000" } })
    (fun t => t.lc = .failed && t.trace = [.diag .error .configuration,
      .done .init (some (.error (.configuration (some "unknown9000"))))]) = true := by decide
/-- V-I2: the probe warns. -/
theorem test_probe_warns : after (seqStep { mapped with pc := .iProbe })
    (fun t => t.pc = .iHook && t.trace = [.acc .read .rdeng 0x00, .diag .warning .readEngineOff]) = true := by decide
/-- V-S2: shutdown with no window. -/
theorem test_shutdown_unmapped : after (seqStep { State.reset with pc := .sGuard })
    (fun t => t.lc = .closed && t.trace = [.done .shutdown (some .ok)]) = true := by decide
/-- V-X6: the read phase sends the outbound byte again, not a zero. -/
theorem test_read_push : (outboundByte { inXfer .xRPush with mem := [(16, 0x03)], held := { wbBase := 16 } }).1 = 0x03 := by
  decide
/-- V-P4, access 10: the pop stores into the inbound buffer and counts up. -/
theorem test_read_pop : after (seqStep { inXfer .xRPop with rxf := [0xAB], held := { rbBase := 32 } })
    (fun t => t.mem = [(32, 0xAB)] && t.regI = 1 && t.pc = .xRPush) = true := by decide
/-- V-X1: a transaction of nothing goes from the assert to the de-assert. -/
theorem test_xfer_empty : after (seqStep { inXfer .xCsOn with regW := 0, regR := 0 })
    (fun t => t.pc = .xCsOff && t.cs = 0x01) = true := by decide

/-! ### Commands, reset, presentation -/

/-- V-E2, V-E3, V-X9, V-S4, V-X10. -/
theorem test_misplaced : stops (exec (.init none) { State.reset with pc := .xWPoll }) .busy = true ∧
    stops (exec (.init none) ready) .initNotFirst = true ∧
    stops (exec (.xfer 0 0 0 0 0) State.reset) .notReady = true ∧
    stops (exec (.shutdown 0) { ready with lc := .closed }) .secondShutdown = true ∧
    stops (exec (.xfer 1 1 5 5 0) ready) .buffersOverlap = true := by decide
/-- R63: an accepted transaction latches its lengths. -/
theorem test_xfer_accepted : after (exec (.xfer 1 3 16 32 0) ready)
    (fun t => t.pc = .xCsOn && t.regW = 1 && t.regR = 3) = true := by decide
/-- R39. -/
theorem test_reset : State.reset.pc = .idle ∧ State.reset.lc = .uninit ∧ State.reset.handle = none ∧
    State.reset.trace = [] := by decide
/-- A presented word is what the next step runs: `RD CTRL`, `INIT`, and one in the middle of a transaction. -/
theorem test_present : after (step (State.reset.withFetchWord 8 0x01)) (fun t => t.pc = .iResolve) = true ∧
    after (step (State.reset.withFetchWord 16 0x0000)) (fun t => t.trace = [.acc .read .ctrl 0x00]) = true ∧
    after (step ({ sc with txf := [0x55] }.withFetchWord 16 0x0500)) (fun t => t.regT = 0x11) = true := by decide
/-- R91, U27: the window has one writer while the block is ready. -/
theorem test_second_writer : stops (step { ready with requests := [.ra16 0x0500#16] }) .secondWriter = true ∧
    stops (step { ready with lc := .failed, requests := [.ra16 0x8511#16] }) .secondWriter = true := by decide

/-- R88, R215 (2): a test may still inspect `CS` after a failed `INIT`, and the re-run of the drain's first test of R137
after `SHUTDOWN` is no second writer's. -/
theorem test_inspects :
    after (step { ready with lc := .failed, requests := [.ra16 0x0500#16] }) (fun t => t.regT = ready.cs) = true ∧
    after (step { ready with lc := .closed, requests := [.ra16 0x0100#16] }) (fun t => t.requests = []) = true :=
  ⟨rfl, rfl⟩

/-! ### Witnesses: states and operands that meet the hypotheses of the obligations, a clause each -/

theorem witness_AccessWordDecodesByItsTopByte :
    [0x00FF#16, 0x80FF#16, 0x01FF#16, 0x81FF#16, 0x02FF#16, 0x82FF#16, 0x03FF#16, 0x83FF#16, 0x04FF#16, 0x84FF#16,
      0x05FF#16, 0x85FF#16, 0x06FF#16, 0x86FF#16, 0x07FF#16, 0x87FF#16].map (fun w => w.extractLsb' 8 8) =
    [0x00#8, 0x80#8, 0x01#8, 0x81#8, 0x02#8, 0x82#8, 0x03#8, 0x83#8, 0x04#8, 0x84#8, 0x05#8, 0x85#8, 0x06#8, 0x86#8,
      0x07#8, 0x87#8] := by decide

theorem witness_ReservedAccessWordsRefused :
    (0x0800#16).extractLsb' 11 4 ≠ 0#4 ∧ (0x7FFF#16).extractLsb' 11 4 ≠ 0#4 ∧
    ({ State.reset with requests := [.ra16 0x0800#16] } : State).pc = .idle := by decide

theorem witness_ReservedCommandCodesRefused :
    (0x00#8 ≠ 0x01#8 ∧ 0x00#8 ≠ 0x02#8 ∧ 0x00#8 ≠ 0x03#8) ∧ (0x04#8 ≠ 0x01#8 ∧ 0x04#8 ≠ 0x02#8 ∧ 0x04#8 ≠ 0x03#8) ∧
    ({ State.reset with requests := [.sc8 0x04#8 {}] } : State).requests = [.sc8 0x04#8 {}] := by decide

/-- Also of `ReadReadEngineLoadsT`, `ReadChipSelectLoadsT` and `ReadStatusSamplesOccupancy`. -/
theorem witness_ReadControlLoadsT : mapped.handle.isSome = true ∧ mapped.iface = .core := by decide

theorem witness_WriteControlStoresOrRefuses :
    (double.handle.isSome = true ∧ double.iface = .echoDouble) ∧
    (sc.iface = .core ∧ (0x50#8).getLsbD Config.pSpe = true ∧ (0x50#8).getLsbD Config.pMstr = true) ∧
    (sc.ctrl.getLsbD Config.pSpe = true ∧ (0x9F#8).getLsbD Config.pSpe = false) ∧
    (sc.ctrl.getLsbD Config.pMstr = true ∧ (0xCF#8).getLsbD Config.pMstr = false) := by decide

/-- The clause on the shift step: a byte waits for `SPE`. -/
theorem witness_WriteControlStoresOrRefuses_enables :
    (0xDF#8).getLsbD Config.pSpe = true ∧ (0xDF#8).getLsbD Config.pMstr = true ∧
    ({ sc with ctrl := 0x9F, txf := [0x55] } : State).rdeng.getLsbD Config.pRen = false ∧
    sc.rxf.length < Config.rxDepth ∧ ∃ t, exec (.wrCtrl 0xDF) { sc with ctrl := 0x9F, txf := [0x55] } = .next t := by
  refine ⟨by decide, by decide, by decide, ?_, _, rfl⟩
  show 0 < Config.rxDepth
  simp [Config.rxDepth]

theorem witness_WriteControlStoresOrRefuses_issue :
    ∃ s1 v, issue { sc with pc := .iCtrlWr } = some (.wrCtrl v, s1) := ⟨_, _, rfl⟩

/-- The FIFO is full in the last clause. -/
theorem witness_PushAppendsToWriteFifo :
    (sc.handle.isSome = true ∧ sc.iface = .core ∧ softwareOwned sc.ctrl sc.rdeng = true ∧
      sc.txf.length ≠ Config.txDepth) ∧
    (mapped.iface = .core ∧ softwareOwned mapped.ctrl mapped.rdeng = false) ∧
    ({ sc with txf := List.replicate Config.txDepth 0 } : State).txf.length = Config.txDepth := by
  refine ⟨⟨rfl, rfl, by decide, ?_⟩, ⟨rfl, by decide⟩, List.length_replicate ..⟩
  show 0 ≠ Config.txDepth
  simp [Config.txDepth]

theorem witness_PopTakesOldestReceivedByte :
    (softwareOwned sc.ctrl sc.rdeng = true ∧ ({ sc with rxf := [0x40] } : State).rxf = 0x40 :: []) ∧
    ({ sc with rxf := [0x40] } : State).rxf.length ≤ Config.rxDepth ∧
    softwareOwned mapped.ctrl mapped.rdeng = false ∧ sc.rxf = [] := by
  refine ⟨⟨by decide, rfl⟩, ?_, by decide, rfl⟩
  show 1 ≤ Config.rxDepth
  simp [Config.rxDepth]

theorem witness_WriteReadEngineStoresOrRefuses :
    (sc.txf = [] ∧ sc.cs0 ≠ .asserted) ∧ (0xF2#8).getLsbD Config.pRen = false ∧
    ({ sc with rdeng := 0xF3 } : State).rdeng.getLsbD Config.pRen = true ∧
    ((0xF3#8).getLsbD Config.pRen = true ∧ sc.rdeng.getLsbD Config.pRen = false ∧
      ({ sc with txf := [0x55] } : State).txf ≠ [] ∧ ({ sc with cs := 0x01 } : State).cs0 = .asserted) := by decide

theorem witness_WriteReadEngineStoresOrRefuses_issue :
    (∃ s1 v, issue { sc with pc := .iReWr } = some (.wrRdeng v, s1)) ∧
    ∃ s1 v, issue { sc with pc := .sReWr } = some (.wrRdeng v, s1) := ⟨⟨_, _, rfl⟩, ⟨_, _, rfl⟩⟩

theorem witness_WriteChipSelectDrivesLine :
    (sc.handle.isSome = true ∧ sc.iface = .core) ∧
    [0x02#8, 0x10#8, 0xFF#8].all (fun v => decide (v ≠ 0x01#8 ∧ v ≠ 0x11#8 ∧ v ≠ 0x00#8)) = true := by decide

theorem witness_AccessMovesOneByteAndRaisesNothing :
    (isAccess .rdCtrl = true ∧ ∃ t, exec .rdCtrl sc = .next t) ∧ State.reset.handle = none :=
  ⟨⟨rfl, _, rfl⟩, rfl⟩

theorem witness_EchoDoubleReadsBackPushes :
    double.handle.isSome = true ∧ double.iface = .echoDouble ∧ stuck double = false ∧
    ({ double with rxf := [0xAB] } : State).rxf = 0xAB :: [] := by decide

theorem witness_EmptyAndFullNeverBoth :
    sc.handle.isSome = true ∧ sc.iface = .core ∧ softwareOwned sc.ctrl sc.rdeng = true := by decide

/-- Also of `ShutdownAccepted`. -/
theorem witness_InitAccepted : State.reset.pc = .idle ∧ State.reset.lc = .uninit ∧ State.reset.lc ≠ .closed := by decide

theorem witness_XferAccepted : ready.pc = .idle ∧ ready.lc = .ready ∧ (Instr.xfer 0 0 0 0 0).wf = true ∧
    (Instr.xfer 4 4 16 20 0).wf = true := by decide

theorem witness_MisplacedCommandsRefused : (inXfer .xWPoll).pc ≠ .idle ∧ (State.reset.pc = .idle ∧ State.reset.lc ≠ .ready) ∧
    (ready.pc = .idle ∧ ready.lc ≠ .uninit) ∧
    (({ ready with lc := .closed } : State).pc = .idle ∧ ({ ready with lc := .closed } : State).lc = .closed) ∧
    ({ ready with requests := [.sc8 0x00#8 {}] } : State).requests = [.sc8 0x00#8 {}] := by decide

/-- The last outbound byte is the first inbound one. -/
theorem witness_OverlappingBuffersRefused :
    ready.pc = .idle ∧ ready.lc = .ready ∧ 16 ≤ 19 ∧ 19 < 16 + 4 ∧ 19 ≤ 19 ∧ 19 < 19 + 1 := by decide

theorem witness_ShiftStepExchangesOneByte :
    (shiftEnabled { sc with txf := [0x9F] } = true ∧ ({ sc with txf := [0x9F] } : State).txf = 0x9F :: []) ∧
    ({ sc with txf := [0x9F] } : State).txf.length ≤ Config.txDepth ∧
    (nextAgent { sc with txf := [0x9F], sched := [.shift] }).1 = .shift := by
  refine ⟨⟨?_, rfl⟩, ?_, rfl⟩
  · simp [shiftEnabled, shiftPoised, sc, mapped, State.reset, Config.rxDepth]
    decide
  · show 1 ≤ Config.txDepth
    simp [Config.txDepth]

theorem witness_ShiftEngineWaitsOrIsRefused :
    (softwareOwned mapped.ctrl mapped.rdeng = false ∧ stuck mapped = false) ∧
    (sc.iface = .core ∧ softwareOwned sc.ctrl sc.rdeng = true ∧ ({ sc with txf := [0x55] } : State).txf ≠ [] ∧
      Config.rxDepth ≤ (List.replicate Config.rxDepth (0 : Byte)).length) := by
  refine ⟨by decide, rfl, by decide, by decide, ?_⟩
  simp

theorem witness_DeviceAnswersExchange :
    ({ sc with dev := .echo } : State).dev = .echo ∧
    ({ sc with dev := .scripted [0xEF] } : State).dev = .scripted (0xEF :: []) ∧
    ({ sc with dev := .scripted [] } : State).dev = .scripted [] ∧ sc.dev = .any [] ∧
    Cs0.deasserted ≠ .asserted ∧ Cs0.hw ≠ .asserted := by decide

/-- Also of `FirstCauseIsReported`. -/
theorem witness_ResolveMapsTheWindow :
    Config.classify ({ State.reset with pc := .iResolve } : State).held.selector = none ∧
    Config.classify ({ State.reset with pc := .iResolve, held := { selector := some "3a4000" } } : State).held.selector =
      some .f64G ∧
    ({ State.reset with mapReply := .failure } : State).mapReply = .failure ∧ State.reset.mapReply = .free ∧
    ({ State.reset with mapReply := .pointer 0 } : State).mapReply = .pointer 0 := by decide

theorem witness_ProbeWarnsWhenReadEngineOff :
    ({ mapped with pc := .iProbe, rdeng := 0x01 } : State).rdeng.getLsbD Config.pRen = true ∧
    ({ mapped with pc := .iProbe, rdeng := 0xFE } : State).rdeng.getLsbD Config.pRen = false := by decide

/-- Also of `RegisterMakesTheBlockReady`. -/
theorem witness_HookRegistersShutdown :
    ({ mapped with pc := .iHook, hookReply := .ok } : State).hookReply = .ok ∧
    ({ mapped with pc := .iHook, hookReply := .fail } : State).hookReply = .fail ∧
    ({ mapped with pc := .iHook } : State).hookReply = .free ∧ ({ mapped with pc := .iRegister } : State).masterReply = .free ∧
    ({ mapped with pc := .iRegister, masterReply := .ok } : State).masterReply = .ok ∧
    ({ mapped with pc := .iRegister, masterReply := .fail } : State).masterReply = .fail := by decide

/-- One state for each micro-state. -/
theorem witness_InitConfiguresTheRegisters :
    [MicroState.iCsIdle, .iCtrlRd, .iCtrlWr, .iReRd, .iReWr].all
      (fun p => ({ mapped with pc := p } : State).handle.isSome) = true := by decide

theorem witness_DrainPopsUntilEmpty :
    ({ sc with pc := .iDrainPoll } : State).handle.isSome = true ∧
    (softwareOwned sc.ctrl sc.rdeng = true ∧ ({ sc with pc := .iDrainPop, rxf := [0x12] } : State).rxf = 0x12 :: []) := by
  decide

theorem witness_ShutdownMicroSteps :
    (State.reset.handle = none) ∧ ({ sc with pc := .sGuard } : State).handle.isSome = true ∧
    (({ sc with pc := .sReWr, cs := 0x00 } : State).txf = [] ∧
      ({ sc with pc := .sReWr, cs := 0x00 } : State).cs0 ≠ .asserted) ∧
    ({ sc with pc := .sReWr, rdeng := 0x01, txf := [0x55] } : State).rdeng.getLsbD Config.pRen = true ∧
    (sc.iface = .core ∧ sc.rdeng.getLsbD Config.pRen = false ∧
      ({ sc with pc := .sReWr, txf := [0x55] } : State).txf ≠ []) := by decide

theorem witness_WritePhaseMicroSteps :
    (inXfer .xCsOn).handle.isSome = true ∧ (inXfer .xCsOn).iface = .core ∧
    softwareOwned (inXfer .xCsOn).ctrl (inXfer .xCsOn).rdeng = true ∧
    (inXfer .xWPush).regI < (inXfer .xWPush).regW ∧ (inXfer .xWPush).txf.length ≠ Config.txDepth ∧
    ({ inXfer .xWPop with rxf := [0xAB] } : State).rxf = 0xAB :: [] := by
  refine ⟨rfl, rfl, by decide, by decide, ?_, rfl⟩
  show 0 ≠ Config.txDepth
  simp [Config.txDepth]

/-- The draw begins at index `W`. -/
theorem witness_ReadPhaseMicroSteps :
    ({ inXfer .xRPush with regI := 1 } : State).regI < (inXfer .xRPush).regW ∧
    (inXfer .xRPush).regW ≤ ({ inXfer .xRPush with regI := 2 } : State).regI ∧
    (inXfer .xRPush).txf.length ≠ Config.txDepth ∧
    ({ inXfer .xRPop with rxf := [0xAB] } : State).rxf = 0xAB :: [] := by
  refine ⟨by decide, by decide, ?_, rfl⟩
  show 0 ≠ Config.txDepth
  simp [Config.txDepth]

/-- A request and an access of a micro-program, with the shift engine out of play and with its turn passed. -/
theorem witness_StepRunsTheDecodedInstruction :
    (shiftPoised ready = false ∧ decode (.sc8 0x03#8 {}) = .ok (.shutdown 0)) ∧
    (sc.lc ≠ .ready ∧ decode (.ra16 0x0500#16) = .ok .rdCs ∧ disturbsCore .rdCs = false) ∧
    (ready.lc = .ready ∧ ({ ready with lc := .failed } : State).lc = .failed ∧ decode (.ra16 0x8511#16) = .ok (.wrCs 0x11#8) ∧
      disturbsCore (.wrCs 0x11#8) = true) ∧
    (shiftEnabled { ready with txf := [0x55], sched := [.seq] } = true ∧
      (nextAgent { ready with txf := [0x55], sched := [.seq] }).1 = .seq) ∧
    decodeTableWord 16 0x87FF = some (.wrRsv7 0xFF) ∧ decodeTableWord 8 0x03 = some (.shutdown 0) := by
  refine ⟨by decide, by decide, by decide, ⟨?_, rfl⟩, by decide, by decide⟩
  rw [shiftEnabled_of_rxf_nil rfl]
  decide

theorem witness_StepRunsTheDecodedInstruction_issue :
    stuck { sc with pc := .xCsOn } = false ∧ ∃ s1, issue { sc with pc := .xCsOn } = some (csOn, s1) := ⟨rfl, _, rfl⟩

/-- A host that answers ok. -/
def obliging : State := { State.reset with mapReply := .pointer 0x1000, hookReply := .ok, masterReply := .ok }

/-- Also of `DrainAfterShutdownFindsNothing`; the core holds two bytes to drain. -/
theorem witness_InitEndsSoftwareControlled :
    ({ obliging with rxf := [0x12, 0x34] } : State).pc = .idle ∧ obliging.lc = .uninit ∧ obliging.txf = [] ∧
    Config.classify (some "3a4000") = some .f64G ∧ obliging.mapReply = .pointer 0x1000 ∧ obliging.hookReply = .ok ∧
    obliging.masterReply = .ok := by decide

theorem witness_FailedInitLeavesWhatHappened :
    (obliging.handle = none ∧ obliging.hooked = false ∧ obliging.master = false) ∧
    Config.classify (some "unknown9000") = none ∧
    ({ obliging with mapReply := .failure } : State).mapReply = .failure ∧
    ({ obliging with hookReply := .fail } : State).hookReply = .fail ∧
    ({ obliging with masterReply := .fail } : State).masterReply = .fail := by decide

theorem witness_ShutdownRestoresTheReadEngine :
    (ready.pc = .idle ∧ ready.lc ≠ .closed ∧ ready.handle.isSome = true ∧ ready.txf = []) ∧
    (State.reset.pc = .idle ∧ State.reset.lc ≠ .closed ∧ State.reset.handle = none ∧ State.reset.txf = []) := by decide

/-- V-X6's lengths with turns enough for the shift engine, and the empty transaction with none. -/
theorem witness_XferMovesEveryByte :
    (ready.pc = .idle ∧ ready.lc = .ready ∧ ready.handle.isSome = true ∧ ready.iface = .core ∧
      softwareOwned ready.ctrl ready.rdeng = true ∧ ready.txf = [] ∧ ready.rxf = []) ∧
    ((Instr.xfer 4 1 16 32 0).wf = true ∧
      4 + 1 ≤ ({ ready with sched := [.seq, .shift, .shift, .seq, .shift, .shift, .shift] } : State).sched.count .shift) ∧
    ((Instr.xfer 0 0 0 0 0).wf = true ∧ 0 + 0 ≤ ready.sched.count .shift) := by decide

/-- V-P4, and more read than written. -/
theorem witness_EchoDoubleReturnsOutboundBytes :
    double.pc = .idle ∧ double.lc = .ready ∧ double.handle.isSome = true ∧ double.iface = .echoDouble ∧
    double.rxf = [] ∧ (Instr.xfer 2 2 16 32 0).wf = true ∧ (Instr.xfer 1 3 16 32 0).wf = true := by decide

theorem sc_owned : sc.iface = .core ∧ softwareOwned sc.ctrl sc.rdeng = true := by decide

/-- A round-trip with its byte in `TXF`. -/
def waiting (p : MicroState) : State := { inXfer p with txf := [0x9F], dev := .echo, sched := [.shift] }

theorem waiting_disciplined (p : MicroState) (h : p = .xWPoll ∨ p = .xRPoll) : Disciplined (waiting p) := by
  rcases h with rfl | rfl <;> refine ⟨?_, ?_, rfl, rfl, ?_⟩
  · exact fun c hc => absurd hc (List.not_mem_nil)
  · exact fun hc => by cases hc
  · refine ⟨?_, ?_, ?_, ?_, ?_⟩ <;> decide
  · exact fun c hc => absurd hc (List.not_mem_nil)
  · exact fun hc => by cases hc
  · refine ⟨?_, ?_, ?_, ?_, ?_⟩ <;> decide

/-- The state after the shift engine has moved. -/
def arrived (p : MicroState) : State :=
  { waiting p with txf := [], rxf := [0x9F], sched := [], trace := [.xfer .asserted 0x9F 0x9F] }

theorem step_waiting (p : MicroState) : step (waiting p) = .next (arrived p) := by
  have hp : shiftEnabled (waiting p) = true := by
    rw [shiftEnabled_of_rxf_nil rfl]
    simp [shiftPoised, waiting, inXfer, ready, sc_owned]
  have hn : nextAgent (waiting p) = (.shift, { waiting p with sched := [] }) := rfl
  rw [step_enabled hp, hn]
  exact shiftStep_echo rfl rfl rfl lineOf_csAssert

/-- Of `StepKeepsDiscipline`, `RunningCommandIsNeverRefused` and `LifecycleMovesForward`. -/
theorem witness_StepKeepsDiscipline : Disciplined (waiting .xWPoll) ∧
    (waiting .xWPoll).pc ≠ .idle ∧ step (waiting .xWPoll) = .next (arrived .xWPoll) :=
  ⟨waiting_disciplined _ (.inl rfl), by decide, step_waiting _⟩

/-- A memory with one cell and a byte in the write FIFO. -/
theorem witness_StepKeepsStateWellKept : WellKept { waiting .xRPoll with mem := [(16, 0x03)] } ∧
    ∃ t, step { waiting .xRPoll with mem := [(16, 0x03)] } = .next t := by
  refine ⟨⟨⟨by simp, by simp [memBlank]⟩, fun _ => ⟨Nat.zero_le _, ?_⟩⟩, _, rfl⟩
  show 1 ≤ Config.txDepth
  simp [Config.txDepth]

/-- Two empty transactions, one after the other (V-X11). -/
def twice : State := { ready with requests := [.sc8 0x02 {}, .sc8 0x02 {}] }

/-- The step that asserts the line. -/
theorem witness_AssertsHaveDeassertBetween_step :
    Bracketed { ready with pc := .xCsOn } ∧ ∃ t, step { ready with pc := .xCsOn } = .next t :=
  ⟨⟨fun c hc => absurd hc List.not_mem_nil, rfl⟩, _, rfl⟩

theorem witness_AssertsHaveDeassertBetween : twice.pc = .idle ∧ CommandsOnly twice ∧ twice.trace = [] ∧
    ∃ t, run 6 twice = .next t ∧
      t.trace = [] ++ assertEvent :: ([deassertEvent, .done .xfer none] ++ assertEvent :: [deassertEvent, .done .xfer none]) :=
  ⟨rfl, by unfold CommandsOnly; decide, rfl, _, rfl, rfl⟩

/-- V-X8, with the shift engine passed over three times. -/
theorem witness_UnservedPollLoopHangs :
    ({ waiting .xWPoll with sched := [.seq, .seq, .seq] } : State).sched = List.replicate 3 .seq ∧
    shiftEnabled { waiting .xWPoll with sched := [.seq, .seq, .seq] } = true ∧
    shiftEnabled { waiting .xRPoll with sched := [] } = true := by
  refine ⟨rfl, ?_, ?_⟩ <;> rw [shiftEnabled_of_rxf_nil rfl] <;>
    simp [shiftPoised, waiting, inXfer, ready, sc_owned]

/-- U29, R179 (c): `SPE` was cleared by someone else while a byte waits; no agent has a step. -/
theorem test_poll_stuck : step { waiting .xWPoll with ctrl := 0x10 } = .fault .stuck ∧
    step { waiting .xRPoll with rdeng := 0x01 } = .fault .stuck := ⟨rfl, rfl⟩

/-- V-H6: refused, although the turn is the sequencer's. -/
theorem test_rxf_full_refused :
    step { waiting .xWPoll with rxf := List.replicate Config.rxDepth 0, sched := [.seq] } = .refused .rxfFull :=
  step_blocked rfl (by simp)

theorem witness_FifosConserveBytesInOrder : (waiting .xWPoll).iface = .core ∧
    run 1 (waiting .xWPoll) = .next (arrived .xWPoll) := ⟨rfl, run_succ (step_waiting _) 0⟩

theorem witness_HandleIsNeverUnset : ({ ready with pc := .sGuard } : State).handle.isSome = true ∧
    ∃ t, step { ready with pc := .sGuard } = .next t := ⟨rfl, _, rfl⟩

theorem witness_EnableBitsAreNeverCleared : sc.iface = .core ∧ sc.ctrl.getLsbD Config.pSpe = true ∧
    sc.ctrl.getLsbD Config.pMstr = true ∧ ∃ t, step { sc with pc := .iCtrlWr } = .next t :=
  ⟨rfl, by decide, by decide, _, rfl⟩

/-- At the one micro-state that stores, and at one that does not. -/
theorem witness_TransactionLeavesControlAlone :
    (isXferState .xRPop = true ∧ ∃ t, step { inXfer .xRPop with rxf := [0xAB] } = .next t) ∧
    (isXferState .xCsOff = true ∧ ∃ t, step (inXfer .xCsOff) = .next t) := ⟨⟨rfl, _, rfl⟩, rfl, _, rfl⟩

/-! A responsive run from each poll micro-state: the byte arrives, the poll sees it, the pop takes it; it was the last, so
the line is de-asserted and the machine waits for ever. -/

/-- The last round-trip of a transaction of one byte. -/
def lastTrip (p : MicroState) : State :=
  { waiting p with regW := 1, regR := if p = .xRPoll then 1 else 0 }

/-- The byte has arrived. -/
def tripArrived (p : MicroState) : State :=
  { lastTrip p with txf := [], rxf := [0x9F], sched := [], trace := [.xfer .asserted 0x9F 0x9F] }

/-- The poll has seen it. -/
def tripSeen (p q : MicroState) : State :=
  { tripArrived p with
    pc := q, regS := (sampleStat (tripArrived p)).1, draws := 1
    trace := (tripArrived p).trace ++ [.acc .read .stat (sampleStat (tripArrived p)).1] }

/-- What a step answers, where it answers a next state. -/
def stepOr (s : State) : State :=
  match step s with
  | .next t => t
  | _ => s

/-- The run: five states, then the last of them for ever. -/
def tripRun (p q : MicroState) : Nat → State
  | 0 => lastTrip p
  | 1 => tripArrived p
  | 2 => tripSeen p q
  | 3 => stepOr (tripSeen p q)
  | _ => stepOr (stepOr (tripSeen p q))

theorem tripRun_isRun (p q : MicroState) (h : p = .xWPoll ∧ q = .xWPop ∨ p = .xRPoll ∧ q = .xRPop) :
    IsRun (tripRun p q) := by
  have h0 : step (lastTrip p) = .next (tripArrived p) := by
    have hp : shiftEnabled (lastTrip p) = true := by
      rw [shiftEnabled_of_rxf_nil rfl]
      simp [shiftPoised, lastTrip, waiting, inXfer, ready, sc_owned]
    have hn : nextAgent (lastTrip p) = (.shift, { lastTrip p with sched := [] }) := rfl
    rw [step_enabled hp, hn]
    exact shiftStep_echo rfl rfl rfl lineOf_csAssert
  have h1 : step (tripArrived p) = .next (tripSeen p q) := by
    have hu : shiftPoised (tripArrived p) = false := by simp [shiftPoised, tripArrived]
    have hb : bit (sampleStat (tripArrived p)).1 Config.pRfe = false := by
      rw [sampleStat_rfe]
      rfl
    have hs : execRdStat (tripArrived p) = _ := execRdStat_ok (s := tripArrived p) rfl
    rw [step_unpoised hu (stuck_of_rxf (List.cons_ne_nil _ _))]
    rcases h with ⟨rfl, rfl⟩ | ⟨rfl, rfl⟩
    · refine (seqStep_issue (i := .rdStat) (by decide) rfl hs).trans ?_
      show Host.Outcome.next (afterXWPoll _) = _
      simp only [afterXWPoll, hb]
      rfl
    · refine (seqStep_issue (i := .rdStat) (by decide) rfl hs).trans ?_
      show Host.Outcome.next (afterXRPoll _) = _
      simp only [afterXRPoll, hb]
      rfl
  have h4 : step (stepOr (stepOr (tripSeen p q))) = .next (stepOr (stepOr (tripSeen p q))) := by
    rcases h with ⟨rfl, rfl⟩ | ⟨rfl, rfl⟩ <;> rfl
  rintro (_ | _ | _ | _ | n)
  · exact h0
  · exact h1
  · rcases h with ⟨rfl, rfl⟩ | ⟨rfl, rfl⟩ <;> rfl
  · rcases h with ⟨rfl, rfl⟩ | ⟨rfl, rfl⟩ <;> rfl
  · exact h4

theorem tripRun_responsive (p q : MicroState) (h : p = .xWPoll ∧ q = .xWPop ∨ p = .xRPoll ∧ q = .xRPop) :
    Responsive (tripRun p q) := by
  intro n hn
  have h4 : shiftEnabled (stepOr (stepOr (tripSeen p q))) = true := hn (n + 4) (by omega)
  have h5 : shiftEnabled (stepOr (stepOr (tripSeen p q))) = false := by
    rcases h with ⟨rfl, rfl⟩ | ⟨rfl, rfl⟩ <;> rfl
  rw [h5] at h4
  cases h4

theorem witness_ResponsivePollLoopsEnd :
    (IsRun (tripRun .xWPoll .xWPop) ∧ Responsive (tripRun .xWPoll .xWPop) ∧ (tripRun .xWPoll .xWPop 0).pc = .xWPoll) ∧
    (IsRun (tripRun .xRPoll .xRPop) ∧ Responsive (tripRun .xRPoll .xRPop) ∧ (tripRun .xRPoll .xRPop 0).pc = .xRPoll) :=
  ⟨⟨tripRun_isRun _ _ (.inl ⟨rfl, rfl⟩), tripRun_responsive _ _ (.inl ⟨rfl, rfl⟩), rfl⟩,
    ⟨tripRun_isRun _ _ (.inr ⟨rfl, rfl⟩), tripRun_responsive _ _ (.inr ⟨rfl, rfl⟩), rfl⟩⟩

/-- The runs of `witness_ResponsivePollLoopsEnd` start in disciplined states. -/
theorem witness_ResponsivePollLoopsEnd_disciplined :
    Disciplined (tripRun .xWPoll .xWPop 0) ∧ Disciplined (tripRun .xRPoll .xRPop 0) :=
  ⟨waiting_disciplined _ (.inl rfl), waiting_disciplined _ (.inr rfl)⟩

/-! Statements whose hypotheses another statement's witness already meets, each under its own name. -/

theorem witness_ReadStatusSamplesOccupancy : mapped.handle.isSome = true ∧ mapped.iface = .core ∧
    (0xF1#8).getLsbD Config.pRfe = ({ mapped with regS := 0x01 } : State).regS.getLsbD Config.pRfe := by decide

theorem witness_ReadReadEngineLoadsT : mapped.handle.isSome = true := by decide

theorem witness_ReadChipSelectLoadsT : mapped.handle.isSome = true := by decide

theorem witness_ReservedOffsetsRefused : Instr.wrRsv7 0xFF ∈ [Instr.rdRsv7, .wrRsv7 0xFF] := by decide

theorem witness_ShutdownAccepted : (State.reset.pc = .idle ∧ State.reset.lc ≠ .closed) ∧
    (ready.pc = .idle ∧ ready.lc ≠ .closed) := by decide

theorem witness_RegisterMakesTheBlockReady :
    ({ mapped with pc := .iRegister, masterReply := .ok } : State).masterReply = .ok ∧
    ({ mapped with pc := .iRegister, masterReply := .fail } : State).masterReply = .fail ∧
    ({ mapped with pc := .iRegister } : State).masterReply = .free := by decide

theorem witness_FirstCauseIsReported :
    ({ obliging with pc := .iResolve, held := { selector := some "unknown9000" } } : State).pc = .iResolve ∧
    Config.classify ({ obliging with pc := .iResolve, held := { selector := some "unknown9000" } } : State).held.selector =
      none := by decide

theorem witness_DrainAfterShutdownFindsNothing :
    ({ obliging with rxf := [0x12] } : State).pc = .idle ∧ obliging.lc = .uninit ∧ obliging.txf = [] ∧
    Config.classify (some "3a4000") = some .f64G ∧ obliging.mapReply = .pointer 0x1000 ∧ obliging.hookReply = .ok ∧
    obliging.masterReply = .ok := by decide

theorem witness_RunningCommandIsNeverRefused : Disciplined (waiting .xRPoll) ∧ (waiting .xRPoll).pc ≠ .idle :=
  ⟨waiting_disciplined _ (.inr rfl), by decide⟩

theorem witness_LifecycleMovesForward : Disciplined (waiting .xWPoll) ∧
    step (waiting .xWPoll) = .next (arrived .xWPoll) := ⟨waiting_disciplined _ (.inl rfl), step_waiting _⟩

end Sys2Proof.Tests
end

section
/-! PROOFS. The bounds of the OPEN parameters (R5, R6, R64): one lemma per parameter, then the obligations of
00_scope.md. -/

namespace Sys2Proof.Config

theorem classify_absent : classify none = none := rfl

theorem classify_3a4000 : classify (some "3a4000") = some .f64G := by simp [classify]

theorem classify_unknown9000 : classify (some "unknown9000") = none := by simp [classify]

theorem classify_empty : classify (some "") = none := by simp [classify]

theorem rxDepth_pos : 0 < rxDepth := Nat.succ_pos _

theorem txDepth_pos : 0 < txDepth := Nat.succ_pos _

theorem errCode_ne_zero (k : Nat) : errCode k ≠ 0 := Nat.succ_ne_zero _

/-- R42: whichever family has the smaller base, the gap between the two is at least 1. -/
theorem base_f64C_ne_base_f64G : base .f64C ≠ base .f64G := by
  cases h : base64GIsLow with
  | true =>
    simp only [base, h, if_true]
    omega
  | false =>
    simp only [base, h, Bool.false_eq_true, if_false]
    omega

end Sys2Proof.Config

namespace Sys2Proof.Machine

theorem statusCode_ok : statusCode .ok = 0 := rfl

/-- R64: the status of an error is an `ERRCODE`, whatever its kind. -/
theorem statusCode_error_ne_zero (e : InitError) : statusCode (.error e) ≠ 0 := by
  cases e with
  | configuration => exact Config.errCode_ne_zero 0
  | mapping => exact Config.errCode_ne_zero 1
  | registration => exact Config.errCode_ne_zero 2

/-- Settles O39, by the four cases R6 fixes. -/
theorem classifyFixedPoints : Obligations.ClassifyFixedPoints :=
  ⟨Config.classify_3a4000, Config.classify_unknown9000, Config.classify_empty, Config.classify_absent⟩

/-- Settles O40, from the way each OPEN parameter is built from an opaque one. -/
theorem openParametersKeepTheirBounds : Obligations.OpenParametersKeepTheirBounds :=
  ⟨Config.base_f64C_ne_base_f64G, Config.rxDepth_pos, Config.txDepth_pos, statusCode_ok, statusCode_error_ne_zero⟩

end Sys2Proof.Machine
end

section
/-! PROOFS. What the moves of the machine do to the bytes it holds, said once: a step is a chain of elementary moves
(`step_moves`), each of which writes `CTRL`, pushes, pops, exchanges or stores one byte, or moves none. The invariants of
10_state.md that hold of every step or run (R12, R21, R22, R27, R34, R106) are case analyses over these moves. -/

namespace Sys2Proof.Machine

/-! ### Events that move no byte through a FIFO -/

/-- The event is neither an access to `FIFO` nor an exchange on the bus. -/
def movesNoByte : Event → Bool
  | .acc _ r _ => r ≠ .fifo
  | .xfer _ _ _ => false
  | .host _ | .diag _ _ | .done _ _ => true

theorem pushedBytes_append (a b : List Event) : pushedBytes (a ++ b) = pushedBytes a ++ pushedBytes b :=
  List.filterMap_append

theorem poppedBytes_append (a b : List Event) : poppedBytes (a ++ b) = poppedBytes a ++ poppedBytes b :=
  List.filterMap_append

theorem exchanges_append (a b : List Event) : exchanges (a ++ b) = exchanges a ++ exchanges b :=
  List.filterMap_append

theorem sentBytes_append (a b : List Event) : sentBytes (a ++ b) = sentBytes a ++ sentBytes b := by
  simp [sentBytes, exchanges_append]

theorem receivedBytes_append (a b : List Event) : receivedBytes (a ++ b) = receivedBytes a ++ receivedBytes b := by
  simp [receivedBytes, exchanges_append]

theorem pushedBytes_quiet {tr : List Event} (h : ∀ e ∈ tr, movesNoByte e = true) : pushedBytes tr = [] := by
  refine List.filterMap_eq_nil_iff.mpr fun e he => ?_
  have hq := h e he
  split
  · simp [movesNoByte] at hq
  · rfl

theorem poppedBytes_quiet {tr : List Event} (h : ∀ e ∈ tr, movesNoByte e = true) : poppedBytes tr = [] := by
  refine List.filterMap_eq_nil_iff.mpr fun e he => ?_
  have hq := h e he
  split
  · simp [movesNoByte] at hq
  · rfl

theorem exchanges_quiet {tr : List Event} (h : ∀ e ∈ tr, movesNoByte e = true) : exchanges tr = [] := by
  refine List.filterMap_eq_nil_iff.mpr fun e he => ?_
  have hq := h e he
  split
  · simp [movesNoByte] at hq
  · rfl

/-! ### Updates that move no byte -/

/-- From `s` to `t` no byte of the FIFOs, of `CTRL` or of the caller's memory changes, `HANDLE` is not unset, and no event
of a FIFO access or an exchange is emitted. -/
structure Quiet (s t : State) : Prop where
  iface : t.iface = s.iface
  ctrl : t.ctrl = s.ctrl
  rxf : t.rxf = s.rxf
  txf : t.txf = s.txf
  mem : t.mem = s.mem
  handle : s.handle.isSome = true → t.handle.isSome = true
  trace : ∃ tr, t.trace = s.trace ++ tr ∧ ∀ e ∈ tr, movesNoByte e = true

/-- An update of other fields. -/
theorem Quiet.of_fields {s t : State} (iface : t.iface = s.iface := by rfl) (ctrl : t.ctrl = s.ctrl := by rfl)
    (rxf : t.rxf = s.rxf := by rfl) (txf : t.txf = s.txf := by rfl) (mem : t.mem = s.mem := by rfl)
    (handle : t.handle = s.handle := by rfl) (trace : t.trace = s.trace := by rfl) : Quiet s t :=
  ⟨iface, ctrl, rxf, txf, mem, fun h => handle ▸ h, [], by simp [trace], by simp⟩

theorem Quiet.refl (s : State) : Quiet s s := .of_fields

theorem Quiet.trans {s t u : State} (h₁ : Quiet s t) (h₂ : Quiet t u) : Quiet s u := by
  obtain ⟨tr₁, ht₁, hq₁⟩ := h₁.trace
  obtain ⟨tr₂, ht₂, hq₂⟩ := h₂.trace
  refine ⟨h₂.iface.trans h₁.iface, h₂.ctrl.trans h₁.ctrl, h₂.rxf.trans h₁.rxf, h₂.txf.trans h₁.txf,
    h₂.mem.trans h₁.mem, h₂.handle ∘ h₁.handle, tr₁ ++ tr₂, by rw [ht₂, ht₁, List.append_assoc], fun e he => ?_⟩
  exact (List.mem_append.mp he).elim (hq₁ e) (hq₂ e)

theorem quiet_emit (s : State) {e : Event} (he : movesNoByte e = true) : Quiet s (s.emit e) :=
  ⟨rfl, rfl, rfl, rfl, rfl, id, [e], rfl, by simp [he]⟩

theorem quiet_goto (s : State) (p : MicroState) : Quiet s (s.goto p) := .of_fields

theorem quiet_readIntoT (s : State) {r : Reg} (v : Byte) (hr : r ≠ .fifo) : Quiet s (readIntoT s r v) :=
  (Quiet.of_fields (t := { s with regT := v })).trans (quiet_emit _ (by simp [movesNoByte, hr]))

theorem quiet_endCommand (s : State) (c : Command) (st : Option Status) : Quiet s (endCommand s c st) :=
  (Quiet.of_fields (t := { s with pc := .idle, held := {} })).trans (quiet_emit _ rfl)

theorem quiet_raiseError (s : State) (e : InitError) : Quiet s (raiseError s e) :=
  ((quiet_emit s (e := .diag .error (diagClassOf e)) rfl).trans .of_fields).trans (quiet_endCommand _ _ _)

theorem quiet_endShutdown (s : State) : Quiet s (endShutdown s) :=
  (Quiet.of_fields (t := { s with lc := .closed, regST := .ok })).trans (quiet_endCommand _ _ _)

theorem quiet_exchange (s : State) (l : Cs0) (b : Byte) : Quiet s (exchange s l b).2 := by
  obtain ⟨d, n, h⟩ := exchange_eq s l b
  rw [h]
  exact .of_fields

theorem quiet_nextAgent (s : State) : Quiet s (nextAgent s).2 := by
  obtain ⟨l, n, h⟩ := nextAgent_eq s
  rw [h]
  exact .of_fields

theorem quiet_askMap (s : State) : Quiet s (askMap s).2 := by
  obtain ⟨n, h⟩ := askMap_eq s
  rw [h]
  exact .of_fields

theorem quiet_askRegister (s : State) (r : RegReply) : Quiet s (askRegister s r).2 := by
  obtain ⟨n, h⟩ := askRegister_eq s r
  rw [h]
  exact .of_fields

theorem quiet_outboundByte (s : State) : Quiet s (outboundByte s).2 := by
  obtain ⟨n, h⟩ := outboundByte_eq s
  rw [h]
  exact .of_fields

/-! ### The micro-programs outside their accesses -/

/-- The operand of an access is formed from the state, or by a draw. -/
theorem issue_state {s s1 : State} {i : Instr} (h : issue s = some (i, s1)) : s1 = s ∨ s1 = (outboundByte s).2 := by
  unfold issue at h
  split at h <;> simp only [reduceCtorEq, Option.some.injEq, Prod.mk.injEq] at h <;> simp [← h.2]

theorem quiet_issue {s s1 : State} {i : Instr} (h : issue s = some (i, s1)) : Quiet s s1 := by
  rcases issue_state h with rfl | rfl
  · exact .refl _
  · exact quiet_outboundByte s

theorem quiet_resolveMap (s : State) (fam : Family) : Quiet s (resolveMap s fam) := by
  have hcall := (quiet_askMap s).trans (quiet_emit _
    (e := .host (.map Config.mapLabel (Config.base fam) Config.winLen (askMap s).1)) rfl)
  unfold resolveMap
  split
  · exact hcall.trans (quiet_raiseError _ _)
  · exact ⟨hcall.iface, hcall.ctrl, hcall.rxf, hcall.txf, hcall.mem, fun _ => rfl, hcall.trace⟩

theorem quiet_microIResolve (s : State) : Quiet s (microIResolve s) := by
  unfold microIResolve
  split
  · exact quiet_raiseError _ _
  · exact quiet_resolveMap _ _

theorem quiet_microIHook (s : State) : Quiet s (microIHook s) := by
  have hcall := (quiet_askRegister s s.hookReply).trans (quiet_emit _
    (e := .host (.registerShutdownHook .shutdown Config.hookContext (askRegister s s.hookReply).1)) rfl)
  unfold microIHook
  split_ifs
  · exact hcall.trans .of_fields
  · exact hcall.trans (quiet_raiseError _ _)

theorem quiet_microIRegister (s : State) : Quiet s (microIRegister s) := by
  have hcall := (quiet_askRegister s s.masterReply).trans (quiet_emit _
    (e := .host (.registerBusMaster opTable (askRegister s s.masterReply).1)) rfl)
  unfold microIRegister
  split_ifs
  · exact (hcall.trans .of_fields).trans (quiet_endCommand _ _ _)
  · exact hcall.trans (quiet_raiseError _ _)

theorem quiet_microSGuard (s : State) : Quiet s (microSGuard s) := by
  unfold microSGuard
  split_ifs
  · exact quiet_endShutdown s
  · exact quiet_goto s _

theorem quiet_microHost (s : State) : Quiet s (microHost s) := by
  unfold microHost
  split
  · exact quiet_microIResolve s
  · exact quiet_microIHook s
  · exact quiet_microIRegister s
  · exact quiet_microSGuard s
  all_goals exact .refl s

theorem quiet_afterIProbe (s : State) : Quiet s (afterIProbe s) := by
  unfold afterIProbe
  split_ifs
  · exact quiet_goto s _
  · exact (quiet_emit s rfl).trans (quiet_goto _ _)

theorem quiet_afterXWPop (s : State) : Quiet s (afterXWPop s) := by
  rw [afterXWPop_eq]
  exact .of_fields

/-! ### Elementary moves -/

/-- One elementary move of the machine. -/
inductive Move : State → State → Prop
  /-- No byte moves. -/
  | quiet {s t : State} : Quiet s t → Move s t
  /-- `CTRL <- v` (R81). -/
  | writeCtrl {s : State} {v : Byte} : (s.iface = .core → clearsEnable s.ctrl v = false) →
      Move s (({ s with ctrl := v } : State).emit (.acc .write .ctrl v))
  /-- The oldest byte of `RXF` is popped (R85). -/
  | pop {s : State} {b : Byte} {rest : List Byte} : s.rxf = b :: rest →
      Move s (readIntoT { s with rxf := rest } .fifo b)
  /-- A byte is pushed into `TXF` of the core (R84). -/
  | push {s : State} {b : Byte} : s.iface = .core → s.txf.length ≠ Config.txDepth →
      Move s (({ s with txf := s.txf ++ [b] } : State).emit (.acc .write .fifo b))
  /-- A byte is pushed into the echo double (R93). -/
  | echo {s : State} {b : Byte} : s.iface = .echoDouble →
      Move s (({ s with rxf := s.rxf ++ [b] } : State).emit (.acc .write .fifo b))
  /-- The head of `TXF` is exchanged for a byte of the device (R100). -/
  | exchange {s : State} {l : Cs0} {mosi miso : Byte} {rest : List Byte} : s.txf = mosi :: rest →
      s.rxf.length < Config.rxDepth →
      Move s (({ s with txf := rest, rxf := s.rxf ++ [miso] } : State).emit (.xfer l mosi miso))
  /-- `rb[I] <- T` (R148). -/
  | store {s : State} : Move s (storeInbound s)

/-- A chain of elementary moves. -/
abbrev Moves : State → State → Prop := Relation.ReflTransGen Move

theorem Quiet.moves {s t : State} (h : Quiet s t) : Moves s t := .single (.quiet h)

theorem exec_moves {i : Instr} {s t : State} (h : exec i s = .next t) : Moves s t := by
  cases i with
  | rdCtrl =>
    obtain ⟨-, rfl⟩ := execRdCtrl_inv h
    exact (quiet_readIntoT s _ (by decide)).moves
  | wrCtrl v =>
    obtain ⟨-, hc, rfl⟩ := execWrCtrl_inv h
    exact .single (.writeCtrl hc)
  | rdStat =>
    obtain ⟨-, rfl⟩ := execRdStat_inv h
    exact ((Quiet.of_fields (s := s)).trans (quiet_emit _ rfl)).moves
  | rdFifo =>
    obtain ⟨-, -, b, rest, hr, rfl⟩ := execRdFifo_inv h
    exact .single (.pop hr)
  | wrFifo b =>
    obtain ⟨-, ⟨hi, -, hd, rfl⟩ | ⟨hi, rfl⟩⟩ := execWrFifo_inv h
    · exact .single (.push hi hd)
    · exact .single (.echo hi)
  | rdRdeng =>
    obtain ⟨-, rfl⟩ := execRdRdeng_inv h
    exact (quiet_readIntoT s _ (by decide)).moves
  | wrRdeng v =>
    obtain ⟨-, rfl⟩ := execWrRdeng_inv h
    exact ((Quiet.of_fields (s := s)).trans (quiet_emit _ rfl)).moves
  | rdCs =>
    obtain ⟨-, rfl⟩ := execRdCs_inv h
    exact (quiet_readIntoT s _ (by decide)).moves
  | wrCs v =>
    obtain ⟨-, d, rfl⟩ := execWrCs_inv h
    exact ((Quiet.of_fields (s := s)).trans (quiet_emit _ rfl)).moves
  | init sel =>
    obtain ⟨-, -, rfl⟩ := execInit_inv h
    exact (Quiet.of_fields (s := s)).moves
  | xfer w r wb rb ctx =>
    obtain ⟨-, -, -, rfl⟩ := execXfer_inv h
    exact (Quiet.of_fields (s := s)).moves
  | shutdown ctx =>
    obtain ⟨-, -, rfl⟩ := execShutdown_inv h
    exact (Quiet.of_fields (s := s)).moves
  | wrStat | rdRsva | wrRsva | rdRsvb | wrRsvb | rdRsv7 | wrRsv7 => cases h

theorem follow_moves (p : MicroState) (s : State) : Moves s (follow p s) := by
  cases p with
  | iProbe => exact (quiet_afterIProbe s).moves
  | xWPop => exact (quiet_afterXWPop s).moves
  | xRPop => exact .head .store (Quiet.of_fields (s := storeInbound s)).moves
  | xCsOff => exact (quiet_endCommand s _ _).moves
  | sReWr => exact (quiet_endShutdown s).moves
  | idle | iResolve | iHook | iRegister | sGuard => exact .refl
  | iCsIdle | iCtrlRd | iCtrlWr | iReRd | iReWr | iDrainPoll | iDrainPop | xCsOn | xWPush | xWPoll | xRPush | xRPoll
  | sCs0 | sReRd => exact (Quiet.of_fields (s := s)).moves

theorem shiftStep_moves {s t : State} (hp : shiftPoised s = true) (h : shiftStep s = .next t) : Moves s t := by
  obtain ⟨mosi, rest, htx, hlt, rfl⟩ := shiftStep_inv hp h
  have hq := quiet_exchange s s.cs0 mosi
  rw [← hq.rxf] at hlt ⊢
  rw [← hq.txf] at htx
  exact .head (.quiet hq) (.single (.exchange htx hlt))

theorem seqStep_moves {s t : State} (h : seqStep s = .next t) : Moves s t := by
  rcases seqStep_cases h with ⟨-, -, rfl⟩ | ⟨-, c, rest, i, -, -, -, he⟩ | ⟨-, i, s1, u, hi, hu, rfl⟩ | ⟨-, -, rfl⟩
  · exact .refl
  · exact .head (.quiet .of_fields) (exec_moves he)
  · exact (quiet_issue hi).moves.trans ((exec_moves hu).trans (follow_moves s.pc u))
  · exact (quiet_microHost s).moves

/-- Every step is a chain of elementary moves. -/
theorem step_moves {s t : State} (h : step s = .next t) : Moves s t := by
  rcases step_cases h with ⟨he, -, h⟩ | ⟨-, -, h⟩ | ⟨-, -, h⟩
  · exact (quiet_nextAgent s).moves.trans (shiftStep_moves (by simpa using shiftPoised_of_enabled he) h)
  · exact (quiet_nextAgent s).moves.trans (seqStep_moves h)
  · exact seqStep_moves h

/-- Every run is a chain of elementary moves. -/
theorem run_moves {n : Nat} {s t : State} (h : run n s = .next t) : Moves s t :=
  run_keeps (P := Moves s) (fun _ _ hm hs => hm.trans (step_moves hs)) .refl h

/-- What every elementary move keeps, every chain of them keeps. -/
theorem Moves.keeps {P : State → Prop} (hP : ∀ {s t}, Move s t → P s → P t) {s t : State} (h : Moves s t)
    (hs : P s) : P t := by
  induction h with
  | refl => exact hs
  | tail _ hm ih => exact hP hm ih

/-! ### The form of the data (R21, R22, R34) -/

theorem Move.wellKept {s t : State} (h : Move s t) (hs : WellKept s) : WellKept t := by
  obtain ⟨hm, hf⟩ := hs
  cases h with
  | quiet hq => exact ⟨hq.mem ▸ hm, fun hi => by rw [hq.rxf, hq.txf]; exact hf (hq.iface ▸ hi)⟩
  | writeCtrl => exact ⟨hm, hf⟩
  | pop hr =>
    refine ⟨hm, fun hi => ?_⟩
    obtain ⟨hrx, htx⟩ := hf hi
    rw [hr, List.length_cons] at hrx
    exact ⟨by simpa using by omega, htx⟩
  | push hc hd =>
    refine ⟨hm, fun hi => ?_⟩
    obtain ⟨hrx, htx⟩ := hf hi
    exact ⟨hrx, by simpa using by omega⟩
  | echo hd => exact ⟨hm, fun hi => absurd (hi.symm.trans hd) (by decide)⟩
  | exchange ht hlt =>
    refine ⟨hm, fun hi => ?_⟩
    obtain ⟨-, htx⟩ := hf hi
    rw [ht, List.length_cons] at htx
    exact ⟨by simpa using hlt, by simpa using by omega⟩
  | store => exact ⟨memWrite_wf _ _ _ hm, hf⟩

/-- Settles O51, move by move. -/
theorem stepKeepsStateWellKept : Obligations.StepKeepsStateWellKept :=
  fun _ _ hs h => (step_moves h).keeps Move.wellKept hs

/-! ### Conservation and order of the bytes (R106) -/

/-- Between `s` and `t` both FIFOs conserve bytes and keep their order. -/
def Conserves (s t : State) : Prop :=
  ∃ tr, t.trace = s.trace ++ tr ∧
    poppedBytes tr ++ t.rxf = s.rxf ++ receivedBytes tr ∧
    s.txf ++ pushedBytes tr = sentBytes tr ++ t.txf

theorem Conserves.refl (s : State) : Conserves s s :=
  ⟨[], by simp, by simp [poppedBytes, receivedBytes, exchanges], by simp [pushedBytes, sentBytes, exchanges]⟩

theorem Conserves.trans {s t u : State} (h₁ : Conserves s t) (h₂ : Conserves t u) : Conserves s u := by
  obtain ⟨a, hta, hra, hxa⟩ := h₁
  obtain ⟨b, htb, hrb, hxb⟩ := h₂
  refine ⟨a ++ b, by rw [htb, hta, List.append_assoc], ?_, ?_⟩
  · calc poppedBytes (a ++ b) ++ u.rxf
        = poppedBytes a ++ (poppedBytes b ++ u.rxf) := by rw [poppedBytes_append, List.append_assoc]
      _ = (poppedBytes a ++ t.rxf) ++ receivedBytes b := by rw [hrb, List.append_assoc]
      _ = s.rxf ++ receivedBytes (a ++ b) := by rw [hra, receivedBytes_append, List.append_assoc]
  · calc s.txf ++ pushedBytes (a ++ b)
        = (s.txf ++ pushedBytes a) ++ pushedBytes b := by rw [pushedBytes_append, List.append_assoc]
      _ = sentBytes a ++ (t.txf ++ pushedBytes b) := by rw [hxa, List.append_assoc]
      _ = sentBytes (a ++ b) ++ u.txf := by rw [hxb, sentBytes_append, List.append_assoc]

theorem Move.iface {s t : State} (h : Move s t) : t.iface = s.iface := by
  cases h with
  | quiet hq => exact hq.iface
  | writeCtrl | pop | push | echo | exchange | store => rfl

/-- An elementary move behind the core conserves bytes: what leaves a FIFO or enters it is in the event emitted. -/
theorem Move.conserves {s t : State} (h : Move s t) (hi : s.iface = .core) : Conserves s t := by
  cases h with
  | quiet hq =>
    obtain ⟨tr, ht, hn⟩ := hq.trace
    refine ⟨tr, ht, ?_, ?_⟩
    · simp [hq.rxf, poppedBytes_quiet hn, receivedBytes, exchanges_quiet hn]
    · simp [hq.txf, pushedBytes_quiet hn, sentBytes, exchanges_quiet hn]
  | @writeCtrl v =>
    exact ⟨[.acc .write .ctrl v], rfl, by simp [poppedBytes, receivedBytes, exchanges],
      by simp [pushedBytes, sentBytes, exchanges]⟩
  | @pop b _ hr =>
    exact ⟨[.acc .read .fifo b], rfl, by simp [hr, poppedBytes, receivedBytes, exchanges],
      by simp [pushedBytes, sentBytes, exchanges]⟩
  | @push b =>
    exact ⟨[.acc .write .fifo b], rfl, by simp [poppedBytes, receivedBytes, exchanges],
      by simp [pushedBytes, sentBytes, exchanges]⟩
  | echo hd => exact absurd (hi.symm.trans hd) (by decide)
  | @exchange l mosi miso _ ht =>
    exact ⟨[.xfer l mosi miso], rfl, by simp [poppedBytes, receivedBytes, exchanges],
      by simp [ht, pushedBytes, sentBytes, exchanges]⟩
  | store => exact .refl s

/-- Settles O56: a run is a chain of moves, each conserves bytes, and conservation composes. -/
theorem fifosConserveBytesInOrder : Obligations.FifosConserveBytesInOrder := by
  intro n s t hi h
  have hkept : t.iface = .core ∧ Conserves s t :=
    (run_moves h).keeps (P := fun u => u.iface = .core ∧ Conserves s u)
      (fun hm ⟨hu, hc⟩ => ⟨hm.iface.trans hu, hc.trans (hm.conserves hu)⟩) ⟨hi, .refl s⟩
  exact hkept.2

/-! ### `HANDLE` (R27) -/

theorem Move.handle {s t : State} (h : Move s t) (hs : s.handle.isSome = true) : t.handle.isSome = true := by
  cases h with
  | quiet hq => exact hq.handle hs
  | writeCtrl | pop | push | echo | exchange | store => exact hs

/-- Settles O57, move by move. -/
theorem handleIsNeverUnset : Obligations.HandleIsNeverUnset :=
  fun _ _ hs h => (step_moves h).keeps Move.handle hs

/-! ### The enable bits (R12, R81) -/

/-- A write of `CTRL` that clears no enable keeps each of the two bits that was set. -/
theorem clearsEnable_eq_false {old new : Byte} : clearsEnable old new = false ↔
    (old.getLsbD Config.pSpe = true → new.getLsbD Config.pSpe = true) ∧
      (old.getLsbD Config.pMstr = true → new.getLsbD Config.pMstr = true) := by
  simp [clearsEnable, bit]

theorem Move.not_clearsEnable {s t : State} (h : Move s t) (hi : s.iface = .core) :
    clearsEnable s.ctrl t.ctrl = false := by
  cases h with
  | quiet hq => rw [hq.ctrl]; exact clearsEnable_eq_false.mpr ⟨id, id⟩
  | writeCtrl hc => exact hc hi
  | pop | push | echo | exchange | store => exact clearsEnable_eq_false.mpr ⟨id, id⟩

/-- A chain of moves behind the core keeps an enable bit that every write of `CTRL` keeps. -/
theorem Moves.enable {n : Nat} (hn : ∀ {old new : Byte}, clearsEnable old new = false → old.getLsbD n = true →
    new.getLsbD n = true) {s t : State} (h : Moves s t) (hi : s.iface = .core) (hs : s.ctrl.getLsbD n = true) :
    t.ctrl.getLsbD n = true :=
  (h.keeps (P := fun u => u.iface = .core ∧ u.ctrl.getLsbD n = true)
    (fun hm ⟨hu, hb⟩ => ⟨hm.iface.trans hu, hn (hm.not_clearsEnable hu) hb⟩) ⟨hi, hs⟩).2

/-- Settles O59: only `WR CTRL` changes `CTRL`, and one that clears an enable is refused. -/
theorem enableBitsAreNeverCleared : Obligations.EnableBitsAreNeverCleared :=
  fun _ _ hi h => ⟨(step_moves h).enable (fun hc => (clearsEnable_eq_false.mp hc).1) hi,
    (step_moves h).enable (fun hc => (clearsEnable_eq_false.mp hc).2) hi⟩

end Sys2Proof.Machine
end

section
/-! PROOFS. What the state of 10_state.md is at reset (R38, R39), what a status sample says of the read FIFO (R20), which
buffers share an address (R34), what a step runs (R10, R33, R63, R92, R215) and how the lifecycle moves (R28). -/

namespace Sys2Proof.Machine

/-! ### The lifecycle (R28) -/

/-- No access and no acceptance of a command changes `LC`. -/
theorem exec_lc {i : Instr} {s t : State} (h : exec i s = .next t) : t.lc = s.lc := by
  cases i with
  | rdCtrl => obtain ⟨-, rfl⟩ := execRdCtrl_inv h; rfl
  | wrCtrl => obtain ⟨-, -, rfl⟩ := execWrCtrl_inv h; rfl
  | rdStat => obtain ⟨-, rfl⟩ := execRdStat_inv h; rfl
  | rdFifo => obtain ⟨-, -, _, _, -, rfl⟩ := execRdFifo_inv h; rfl
  | wrFifo => obtain ⟨-, ⟨-, -, -, rfl⟩ | ⟨-, rfl⟩⟩ := execWrFifo_inv h <;> rfl
  | rdRdeng => obtain ⟨-, rfl⟩ := execRdRdeng_inv h; rfl
  | wrRdeng => obtain ⟨-, rfl⟩ := execWrRdeng_inv h; rfl
  | rdCs => obtain ⟨-, rfl⟩ := execRdCs_inv h; rfl
  | wrCs => obtain ⟨-, _, rfl⟩ := execWrCs_inv h; rfl
  | init => obtain ⟨-, -, rfl⟩ := execInit_inv h; rfl
  | xfer => obtain ⟨-, -, -, rfl⟩ := execXfer_inv h; rfl
  | shutdown => obtain ⟨-, -, rfl⟩ := execShutdown_inv h; rfl
  | wrStat | rdRsva | wrRsva | rdRsvb | wrRsvb | rdRsv7 | wrRsv7 => cases h

theorem issue_lc {s s1 : State} {i : Instr} (h : issue s = some (i, s1)) : s1.lc = s.lc := by
  rcases issue_state h with rfl | rfl
  · rfl
  · exact outboundByte_lc s

/-- What follows an access keeps `LC`, but for the end of `SHUTDOWN` (R135). -/
theorem follow_lc (p : MicroState) (s : State) : (follow p s).lc = s.lc ∨ (follow p s).lc = .closed := by
  cases p with
  | sReWr => exact .inr rfl
  | iProbe => exact .inl (by unfold follow afterIProbe; split_ifs <;> rfl)
  | xWPop => exact .inl (by rw [follow, afterXWPop_eq])
  | idle | iResolve | iHook | iCsIdle | iCtrlRd | iCtrlWr | iReRd | iReWr | iDrainPoll | iDrainPop | iRegister | xCsOn
  | xWPush | xWPoll | xRPush | xRPoll | xRPop | xCsOff | sGuard | sCs0 | sReRd => exact .inl rfl

/-- A micro-state without an access changes `LC` only within `INIT`, or at the end of `SHUTDOWN` (R132). -/
theorem microHost_lc (s : State) :
    (microHost s).lc = s.lc ∨ isInitState s.pc = true ∨ (microHost s).lc = .closed := by
  unfold microHost
  split
  case h_1 hp | h_2 hp | h_3 hp => exact .inr (.inl (by simp [hp, isInitState]))
  case h_4 =>
    unfold microSGuard
    split_ifs
    · exact .inr (.inr rfl)
    · exact .inl rfl
  all_goals exact .inl rfl

/-- The sequencer's step keeps `LC`, is one of `INIT`, or ends `SHUTDOWN`. -/
theorem seqStep_lc {s t : State} (h : seqStep s = .next t) :
    t.lc = s.lc ∨ isInitState s.pc = true ∨ t.lc = .closed := by
  rcases seqStep_cases h with ⟨-, -, rfl⟩ | ⟨-, c, rest, i, -, -, -, he⟩ | ⟨-, i, s1, u, hi, hu, rfl⟩ | ⟨-, -, rfl⟩
  · exact .inl rfl
  · exact .inl ((exec_lc he).trans rfl)
  · have hlc : u.lc = s.lc := (exec_lc hu).trans (issue_lc hi)
    exact (follow_lc s.pc u).imp (·.trans hlc) .inr
  · exact microHost_lc s

/-- A step keeps `LC`, is one of `INIT`, or ends `SHUTDOWN`. -/
theorem step_lc {s t : State} (h : step s = .next t) :
    t.lc = s.lc ∨ isInitState s.pc = true ∨ t.lc = .closed := by
  rcases step_cases h with ⟨he, -, h⟩ | ⟨-, -, h⟩ | ⟨-, -, h⟩
  · obtain ⟨_, _, _, _, _, _, -, -, rfl⟩ := shiftStep_fields (shiftPoised_of_enabled he) h
    exact .inl rfl
  · simpa using seqStep_lc h
  · exact seqStep_lc h

/-- Settles O58: `INIT` runs in `UNINIT`, and outside it `LC` only becomes `CLOSED`. -/
theorem lifecycleMovesForward : Obligations.LifecycleMovesForward := by
  rintro s t ⟨-, -, -, -, hinit, -⟩ h
  rcases step_lc h with hk | hp | hc
  · exact .inl hk
  · exact .inr (.inl (hinit hp))
  · cases hs : s.lc with
    | uninit => exact .inr (.inl rfl)
    | ready => exact .inr (.inr (.inl ⟨rfl, hc⟩))
    | failed => exact .inr (.inr (.inr ⟨rfl, hc⟩))
    | closed => exact .inl hc

/-! ### The status sample and the read FIFO (R20, R85) -/

/-- Behind the enabled core with the window mapped a pop goes through exactly when `RXF` has a byte. -/
theorem execRdFifo_next_iff {s : State} (hh : s.handle.isSome = true) (ho : softwareOwned s.ctrl s.rdeng = true) :
    (∃ t, execRdFifo s = .next t) ↔ s.rxf ≠ [] := by
  constructor
  · rintro ⟨t, ht⟩
    obtain ⟨-, -, b, rest, hr, -⟩ := execRdFifo_inv ht
    simp [hr]
  · intro hne
    obtain ⟨b, rest, hr⟩ := List.exists_cons_of_ne_nil hne
    exact ⟨_, execRdFifo_ok hh (fun _ => ho) hr⟩

/-- Settles O19: both flags would make the depth 0, and `RFEMPTY` says whether `RXF` has a byte. -/
theorem emptyAndFullNeverBoth : Obligations.EmptyAndFullNeverBoth := by
  refine ⟨?_, fun s hh _ ho => ?_⟩
  · rintro s hc ⟨hempty, hfull⟩
    obtain ⟨hrfe, hrff, -⟩ := sampleStat_bits hc
    rw [hrfe, decide_eq_true_eq] at hempty
    rw [hrff, decide_eq_true_eq, hempty] at hfull
    exact Config.rxDepth_pos.ne hfull
  · have hrfe : (sampleStat s).1.getLsbD Config.pRfe = decide (s.rxf = []) := sampleStat_rfe s
    rw [hrfe, decide_eq_false_iff_not]
    exact execRdFifo_next_iff hh ho

/-! ### Overlapping buffers (R34) -/

/-- Buffers that share an address are not disjoint. -/
theorem buffersDisjoint_eq_false {w r wb rb a : Nat} (hw : wb ≤ a ∧ a < wb + w) (hr : rb ≤ a ∧ a < rb + r) :
    buffersDisjoint w r wb rb = false := by
  simp only [buffersDisjoint, Bool.or_eq_false_iff, decide_eq_false_iff_not]
  omega

/-- Settles O24, from the shared address. -/
theorem overlappingBuffersRefused : Obligations.OverlappingBuffersRefused := by
  intro s w r wb rb a ctx hp hl hw hw' hr hr'
  have hd := buffersDisjoint_eq_false ⟨hw, hw'⟩ ⟨hr, hr'⟩
  exact ⟨by simp [Instr.wf, Instr.wfError, hd], by simp [exec, execXfer, hp, hl, hd]⟩

/-! ### Reset (R38, R39) -/

theorem reset_wellKept : WellKept State.reset := ⟨memory_wf_nil, fun _ => ⟨Nat.zero_le _, Nat.zero_le _⟩⟩

theorem reset_commandsOnly : CommandsOnly State.reset := by simp [CommandsOnly, State.reset]

theorem reset_lifecycleShape : lifecycleShape State.reset := by
  simp [lifecycleShape, State.reset, isInitState, isXferState]

theorem reset_disciplined : Disciplined State.reset :=
  ⟨reset_commandsOnly, fun _ => rfl, ⟨rfl, fun _ => rfl⟩, trivial, reset_lifecycleShape⟩

/-- Settles O52, one invariant at a time. -/
theorem resetMeetsTheInvariants : Obligations.ResetMeetsTheInvariants :=
  ⟨reset_wellKept, reset_disciplined, reset_commandsOnly, rfl⟩

/-- With nothing in `TXF` the shift engine has no byte to send. -/
theorem shiftPoised_of_txf_nil {s : State} (h : s.txf = []) : shiftPoised s = false := by
  simp [shiftPoised, h]

/-- At reset the engine has nothing to send and nothing is presented, so the step waits. -/
theorem step_reset : step State.reset = .next State.reset :=
  (step_unpoised (shiftPoised_of_txf_nil rfl) (stuck_of_not_poll rfl)).trans rfl

/-- Settles O41: the fields of reset are R39's, and the step there is `step_reset`. -/
theorem resetLeavesSequencerIdle : Obligations.ResetLeavesSequencerIdle :=
  ⟨rfl, rfl, rfl, rfl, rfl, rfl, step_reset⟩

/-! ### What a step runs (R10, R33, R63, R92, R215) -/

/-- What decodes from a command code is a command, no access. -/
theorem not_isAccess_of_decodeCommand {op : Byte} {args : CommandArgs} {i : Instr} (h : decode (.sc8 op args) = .ok i) :
    isAccess i = false := by
  simp only [decode, decodeCommand] at h
  split_ifs at h <;> cases h <;> rfl

/-- What R215 (2) forbids is an access. -/
theorem isAccess_of_disturbsCore {i : Instr} (h : disturbsCore i = true) : isAccess i = true := by
  cases i with
  | init | xfer | shutdown => cases h
  | _ => rfl

/-- The two ways a presented instruction is a second writer's (R92, R215 2). -/
theorem secondWriter_iff {s : State} {i : Instr} :
    secondWriter s i = true ↔ (s.lc = .ready ∧ isAccess i = true) ∨ (s.lc = .failed ∧ disturbsCore i = true) := by
  unfold secondWriter
  cases s.lc <;> simp

/-- A command is no second writer's (R92 speaks of accesses). -/
theorem secondWriter_of_command {s : State} {i : Instr} (h : isAccess i = false) : secondWriter s i = false := by
  rw [← Bool.not_eq_true, secondWriter_iff]
  rintro (⟨-, ha⟩ | ⟨-, hd⟩)
  · simp [h] at ha
  · simpa [h] using isAccess_of_disturbsCore hd

/-- At `IDLE` with the shift engine unable to move, a step is the host's for the next request. -/
theorem step_request {s : State} {c : Code} {rest : List Code} {i : Instr} (hpc : s.pc = .idle)
    (hp : shiftPoised s = false) (hr : s.requests = c :: rest) (hd : decode c = .ok i) :
    step s = if secondWriter s i then .refused .secondWriter else exec i { s with requests := rest } :=
  (step_unpoised hp (stuck_of_not_poll (by rw [hpc]; rfl))).trans (seqStep_request hpc hr hd)

/-- A request that is no second writer's is executed. -/
theorem step_request_exec {s : State} {c : Code} {rest : List Code} {i : Instr} (hpc : s.pc = .idle)
    (hp : shiftPoised s = false) (hr : s.requests = c :: rest) (hd : decode c = .ok i)
    (hw : secondWriter s i = false) : step s = exec i { s with requests := rest } := by
  rw [step_request hpc hp hr hd, hw, if_neg Bool.false_ne_true]

/-- Away from `IDLE`, not stuck and with the shift engine unable to move, a step is the access issued and what follows. -/
theorem step_issue {s s1 : State} {i : Instr} (hpc : s.pc ≠ .idle) (hp : shiftPoised s = false)
    (hs : stuck s = false) (hi : issue s = some (i, s1)) : step s = onNext (exec i s1) (follow s.pc) := by
  rw [step_unpoised hp hs, seqStep, if_neg hpc, microStep, hi]

/-- A table word that decodes is the code of its row. -/
theorem tableCode_of_decodeTableWord {nbits w : Nat} {i : Instr} (h : decodeTableWord nbits w = some i) :
    ∃ c, tableCode nbits w = some c ∧ decode c = .ok i := by
  unfold decodeTableWord at h
  split at h
  · cases h
  · rename_i c hc
    split at h <;> cases h
    exact ⟨c, hc, ‹_›⟩

/-- The code of a row of 8 bits is no access word (R63). -/
theorem tableCode_eight_ne_ra16 (w : Nat) (word : BitVec 16) : tableCode 8 w ≠ some (.ra16 word) := by
  unfold tableCode
  split_ifs <;> simp_all

/-- A code presented at reset is the one request, over a window mapped for an access alone (log 6). -/
theorem present_reset (c : Code) : ∃ h, present State.reset c = { State.reset with requests := [c], handle := h } ∧
    ((∀ word, c ≠ .ra16 word) → h = none) := by
  cases c with
  | ra16 word => exact ⟨some Config.testWindow, rfl, fun hne => absurd rfl (hne word)⟩
  | sc8 op args => exact ⟨none, rfl, fun _ => rfl⟩

/-- A table word presented at reset is what the next step runs. -/
theorem step_withFetchWord_reset {nbits w : Nat} {i : Instr} (hd : decodeTableWord nbits w = some i) :
    ∃ h, step (State.reset.withFetchWord nbits w) = exec i { State.reset with handle := h } ∧
      (nbits = 8 → h = none) := by
  obtain ⟨c, hc, hi⟩ := tableCode_of_decodeTableWord hd
  obtain ⟨h, hpres, hnone⟩ := present_reset c
  refine ⟨h, ?_, ?_⟩
  · have hw : State.reset.withFetchWord nbits w = { State.reset with requests := [c], handle := h } := by
      rw [State.withFetchWord, hc, ← hpres]
    rw [hw, step_request_exec rfl (shiftPoised_of_txf_nil rfl) rfl hi rfl]
    rfl
  · rintro rfl
    exact hnone fun word hra => tableCode_eight_ne_ra16 w word (hra ▸ hc)

/-- Settles O42, one clause per way of choosing what the step runs. -/
theorem stepRunsTheDecodedInstruction : Obligations.StepRunsTheDecodedInstruction := by
  refine ⟨?command, ?testAccess, ?secondWriter, ?microAccess, ?turn, ?tableWord⟩
  case command =>
    intro s op args rest i hpc hp hr hd
    exact step_request_exec hpc hp hr hd (secondWriter_of_command (not_isAccess_of_decodeCommand hd))
  case testAccess =>
    intro s word rest i hpc hready hfailed hp hr hd
    have hw : secondWriter s i = false := by
      rw [← Bool.not_eq_true, secondWriter_iff]
      rintro (⟨hl, -⟩ | ⟨hl, hi⟩)
      · exact hready hl
      · exact Bool.false_ne_true ((hfailed hl).symm.trans hi)
    exact step_request_exec hpc hp hr hd hw
  case secondWriter =>
    intro s word rest i hpc hl hp hr hd
    have hw : secondWriter s i = true := secondWriter_iff.mpr (hl.imp_left (⟨·, isAccess_of_decode hd⟩))
    rw [step_request hpc hp hr hd, if_pos hw]
  case microAccess => exact fun s s1 i hpc hp hs hi => step_issue hpc hp hs hi
  case turn =>
    intro s he ha
    rw [step_enabled he, ha]
  case tableWord => exact fun nbits w i hd => step_withFetchWord_reset hd

end Sys2Proof.Machine
end

section
/-! PROOFS. The two coded forms and the acceptance of a command (30_encoding.md). An access word is a top byte and `DATA`
(`accessWord_eq`), and the decoder reads each field of it back (`decode_accessWord`), so the opcode map of R61 and the
round trip are both facts of that one word. A code that the decoder rejects is refused at `IDLE` (`seqStep_rejected`), and
an accepted command latches its operands (R33 a). -/

namespace Sys2Proof

/-! ### The fields of an access word (R60) -/

/-- The top byte of an access word: `WR`, `Z = 0000`, `OFF` (R60, R61). -/
def topByte (d : Dir) (r : Reg) : Byte := (match d with | .read => 0#1 | .write => 1#1) ++ 0#4 ++ r.off

/-- An access word is its top byte over `DATA`. -/
theorem accessWord_eq (d : Dir) (r : Reg) (v : Byte) : accessWord d r v = topByte d r ++ v := rfl

theorem accessWord_data (d : Dir) (r : Reg) (v : Byte) : (accessWord d r v).extractLsb' 0 8 = v :=
  BitVec.extractLsb'_append_eq_right

theorem accessWord_off (d : Dir) (r : Reg) (v : Byte) : (accessWord d r v).extractLsb' 8 3 = r.off := by
  rw [accessWord_eq, BitVec.extractLsb'_append_eq_of_le (by decide)]
  exact BitVec.extractLsb'_append_eq_right

theorem accessWord_wr (d : Dir) (r : Reg) (v : Byte) : (accessWord d r v).getLsbD 15 = decide (d = .write) := by
  rw [accessWord_eq, topByte.eq_def, BitVec.getLsbD_append, BitVec.getLsbD_append]
  cases d <;> rfl

/-- The register at the offset of a register is that register (R11). -/
@[simp] theorem Reg.atOff_off (r : Reg) : Reg.atOff r.off = r := by
  cases r <;> rfl

/-! ### Decoding an access word (R60, R61, R66) -/

/-- The decoder reads direction, register and `DATA` back from an access word. -/
theorem decode_accessWord (d : Dir) (r : Reg) (v : Byte) :
    decode (.ra16 (accessWord d r v)) = .ok (accessInstr d r v) := by
  have hz : (accessWord d r v).extractLsb' 11 4 = 0 := Laws.UnreservedCode.accessWord_z d r v
  rw [decode, decodeAccess, if_pos hz, accessWord_wr, accessWord_off, accessWord_data, Reg.atOff_off]
  cases d <;> rfl

/-- The top byte selects the row of R61 and the low byte is its `DATA`. -/
theorem decode_of_topByte {word : BitVec 16} (d : Dir) (r : Reg) (h : word.extractLsb' 8 8 = topByte d r) :
    decode (.ra16 word) = .ok (accessInstr d r (word.extractLsb' 0 8)) := by
  have hword : word = accessWord d r (word.extractLsb' 0 8) := by
    rw [accessWord_eq, ← h]
    exact (BitVec.extractLsb'_append_extractLsb' (w := 8) (len := 8)).symm
  rw [← decode_accessWord, ← hword]

/-- R66 (a): a word whose `Z` is not 0000 names no row. -/
theorem decode_reservedZ {word : BitVec 16} (h : word.extractLsb' 11 4 ≠ 0#4) :
    decode (.ra16 word) = .error .reservedZ :=
  if_neg h

/-! ### Decoding a command code (R63, R67) -/

/-- R67: a code that is none of the three names no command, whatever stands beside it. -/
theorem decode_reservedOp {op : Byte} (args : CommandArgs) (hi : op ≠ 0x01#8) (hx : op ≠ 0x02#8) (hs : op ≠ 0x03#8) :
    decode (.sc8 op args) = .error .reservedOp :=
  (if_neg hi).trans ((if_neg hx).trans (if_neg hs))

/-! ### The statements on decoding -/

/-- Settles O4: an access by `decode_accessWord`, a command by its code. -/
theorem decodeInvertsEncode : Obligations.DecodeInvertsEncode := by
  intro i
  cases i with
  | rdCtrl => exact decode_accessWord .read .ctrl 0
  | wrCtrl v => exact decode_accessWord .write .ctrl v
  | rdStat => exact decode_accessWord .read .stat 0
  | wrStat v => exact decode_accessWord .write .stat v
  | rdFifo => exact decode_accessWord .read .fifo 0
  | wrFifo v => exact decode_accessWord .write .fifo v
  | rdRsva => exact decode_accessWord .read .rsva 0
  | wrRsva v => exact decode_accessWord .write .rsva v
  | rdRdeng => exact decode_accessWord .read .rdeng 0
  | wrRdeng v => exact decode_accessWord .write .rdeng v
  | rdCs => exact decode_accessWord .read .cs 0
  | wrCs v => exact decode_accessWord .write .cs v
  | rdRsvb => exact decode_accessWord .read .rsvb 0
  | wrRsvb v => exact decode_accessWord .write .rsvb v
  | rdRsv7 => exact decode_accessWord .read .rsv7 0
  | wrRsv7 v => exact decode_accessWord .write .rsv7 v
  | init | xfer | shutdown => rfl

/-- Settles O1: each row is `decode_of_topByte` at its direction and register. -/
theorem accessWordDecodesByItsTopByte : Obligations.AccessWordDecodesByItsTopByte := fun _ =>
  ⟨decode_of_topByte .read .ctrl, decode_of_topByte .write .ctrl, decode_of_topByte .read .stat,
    decode_of_topByte .write .stat, decode_of_topByte .read .fifo, decode_of_topByte .write .fifo,
    decode_of_topByte .read .rsva, decode_of_topByte .write .rsva, decode_of_topByte .read .rdeng,
    decode_of_topByte .write .rdeng, decode_of_topByte .read .cs, decode_of_topByte .write .cs,
    decode_of_topByte .read .rsvb, decode_of_topByte .write .rsvb, decode_of_topByte .read .rsv7,
    decode_of_topByte .write .rsv7⟩

/-- Settles O5: the access words by their top bytes, the command codes by the table of R63. -/
theorem sampleWordsDecode : Obligations.SampleWordsDecode :=
  ⟨decode_of_topByte .read .ctrl rfl, decode_of_topByte .write .ctrl rfl, decode_of_topByte .read .stat rfl,
    decode_of_topByte .write .fifo rfl, decode_of_topByte .write .cs rfl, rfl, rfl⟩

end Sys2Proof

namespace Sys2Proof.Machine

/-! ### Rejected codes at `IDLE` (R66, R67, R181) -/

/-- A request that the decoder rejects is refused by name. -/
theorem seqStep_rejected {s : State} {c : Code} {rest : List Code} {e : DecodeError} (hpc : s.pc = .idle)
    (hr : s.requests = c :: rest) (hd : decode c = .error e) : seqStep s = .refused (refusalOf e) := by
  simp [seqStep, hpc, hostStep, hr, hd]

/-- Settles O2: (a) is rejected by the decoder, (b) and (c) are refusals of `exec` whatever the state. -/
theorem reservedAccessWordsRefused : Obligations.ReservedAccessWordsRefused :=
  ⟨fun _ hz => decode_reservedZ hz, fun _ _ _ hpc hr hz => seqStep_rejected hpc hr (decode_reservedZ hz),
    fun _ _ => ⟨rfl, rfl, rfl, rfl, rfl, rfl, rfl⟩⟩

/-- Settles O3, from the decoder's answer. -/
theorem reservedCommandCodesRefused : Obligations.ReservedCommandCodesRefused := by
  intro op args hi hx hs
  have hd := decode_reservedOp args hi hx hs
  exact ⟨hd, fun s rest hpc hr => seqStep_rejected hpc hr hd⟩

/-! ### Acceptance of a command (R33 a, R181) -/

/-- R34: an `XFER` is well-formed exactly when its buffers share no address. -/
theorem wf_xfer_iff {w r wb rb ctx : Nat} :
    (Instr.xfer w r wb rb ctx).wf = true ↔ buffersDisjoint w r wb rb = true := by
  simp [Instr.wf, Instr.wfError]

/-- R115: at `IDLE` in `UNINIT`, `INIT` is accepted. -/
theorem execInit_ok {s : State} (sel : Option String) (hpc : s.pc = .idle) (hl : s.lc = .uninit) :
    execInit sel s = .next { s with pc := .iResolve, held := { selector := sel } } := by
  rw [execInit, if_neg (not_not.mpr hpc), if_neg (not_not.mpr hl)]

/-- R140: at `IDLE` in `READY`, an `XFER` with disjoint buffers is accepted. -/
theorem execXfer_ok {s : State} {w r wb rb : Nat} (ctx : Nat) (hpc : s.pc = .idle) (hl : s.lc = .ready)
    (hd : buffersDisjoint w r wb rb = true) :
    execXfer w r wb rb ctx s =
      .next { s with
        pc := .xCsOn, regW := w, regR := r
        held := { w := w, r := r, wbBase := wb, rbBase := rb, ctx := ctx } } := by
  rw [execXfer, if_neg (not_not.mpr hpc), if_neg (not_not.mpr hl), if_pos hd]

/-- R131: at `IDLE` before any other one ended, `SHUTDOWN` is accepted. -/
theorem execShutdown_ok {s : State} (ctx : Nat) (hpc : s.pc = .idle) (hl : s.lc ≠ .closed) :
    execShutdown ctx s = .next { s with pc := .sGuard, held := { ctx := ctx } } := by
  rw [execShutdown, if_neg (not_not.mpr hpc), if_neg hl]

/-- Settles O20: the code is the encoder's, the acceptance is `execInit_ok`. -/
theorem initAccepted : Obligations.InitAccepted :=
  fun _ sel => ⟨rfl, execInit_ok sel⟩

/-- Settles O21: the code is the encoder's, the acceptance is `execXfer_ok`. -/
theorem xferAccepted : Obligations.XferAccepted :=
  fun _ _ _ _ _ ctx => ⟨rfl, fun hpc hl hwf => execXfer_ok ctx hpc hl (wf_xfer_iff.mp hwf)⟩

/-- Settles O22: the code is the encoder's, the acceptance is `execShutdown_ok`. -/
theorem shutdownAccepted : Obligations.ShutdownAccepted :=
  fun _ ctx => ⟨rfl, execShutdown_ok ctx⟩

end Sys2Proof.Machine
end

section
/-! PROOFS. The Register Interface (40_register_interface.md). Every access that goes through is one update of the state
(`exec…_ok`), every other one a refusal by name; the sequencer issues few of the accesses and only certain bytes
(`issuable_of_issue`). The statements follow from these, in the order of R80 to R93. -/

namespace Sys2Proof.Machine

/-! ### The window (R91) -/

/-- An access's whole effect on the state: the core, the device, `T`, `S` and the draws may change, one `Acc` event is
emitted, and everything else is as before. -/
inductive AccessUpdate (s : State) : State → Prop
  | intro {ctrl rdeng cs : Byte} {rxf txf : List Byte} {dev : Device} {regT regS : Byte} {draws : Nat} {d : Dir}
      {r : Reg} {v : Byte} : AccessUpdate s { s with
        ctrl := ctrl, rdeng := rdeng, cs := cs, rxf := rxf, txf := txf, dev := dev, regT := regT, regS := regS
        draws := draws, trace := s.trace ++ [.acc d r v] }

/-- An access that goes through had the window mapped and is an `AccessUpdate`. -/
theorem exec_access_inv {i : Instr} {s t : State} (hi : isAccess i = true) (h : exec i s = .next t) :
    s.handle.isSome = true ∧ AccessUpdate s t := by
  cases i with
  | rdCtrl =>
    obtain ⟨hh, rfl⟩ := execRdCtrl_inv h
    exact ⟨hh, .intro⟩
  | wrCtrl v =>
    obtain ⟨hh, -, rfl⟩ := execWrCtrl_inv h
    exact ⟨hh, .intro⟩
  | rdStat =>
    obtain ⟨hh, rfl⟩ := execRdStat_inv h
    exact ⟨hh, .intro⟩
  | rdFifo =>
    obtain ⟨hh, -, b, rest, -, rfl⟩ := execRdFifo_inv h
    exact ⟨hh, .intro⟩
  | wrFifo b =>
    obtain ⟨hh, ⟨-, -, -, rfl⟩ | ⟨-, rfl⟩⟩ := execWrFifo_inv h
    · exact ⟨hh, .intro⟩
    · exact ⟨hh, .intro⟩
  | rdRdeng =>
    obtain ⟨hh, rfl⟩ := execRdRdeng_inv h
    exact ⟨hh, .intro⟩
  | wrRdeng v =>
    obtain ⟨hh, rfl⟩ := execWrRdeng_inv h
    exact ⟨hh, .intro⟩
  | rdCs =>
    obtain ⟨hh, rfl⟩ := execRdCs_inv h
    exact ⟨hh, .intro⟩
  | wrCs v =>
    obtain ⟨hh, d, rfl⟩ := execWrCs_inv h
    exact ⟨hh, .intro⟩
  | wrStat | rdRsva | wrRsva | rdRsvb | wrRsvb | rdRsv7 | wrRsv7 => cases h
  | init | xfer | shutdown => cases hi

/-- With `HANDLE` unset no access goes through: the defined ones need the window, the others are reserved. -/
theorem exec_access_unmapped {i : Instr} {s : State} (hi : isAccess i = true) (hh : s.handle = none) :
    ∃ r, exec i s = .refused r := by
  cases i with
  | rdCtrl | wrCtrl | rdStat | rdFifo | wrFifo | rdRdeng | wrRdeng | rdCs | wrCs =>
    exact ⟨_, overWindow_unmapped hh _ _⟩
  | wrStat | rdRsva | wrRsva | rdRsvb | wrRsvb | rdRsv7 | wrRsv7 => exact ⟨_, rfl⟩
  | init | xfer | shutdown => cases hi

/-- Settles O17: `AccessUpdate` names every field an access can change. -/
theorem accessMovesOneByteAndRaisesNothing : Obligations.AccessMovesOneByteAndRaisesNothing := by
  refine ⟨fun i s t hi h => ?_, fun i s => exec_access_unmapped⟩
  obtain ⟨hh, ⟨⟩⟩ := exec_access_inv hi h
  exact ⟨hh, ⟨_, _, _, rfl⟩, rfl, rfl, rfl, rfl, rfl, rfl, rfl, rfl, rfl, rfl, rfl, rfl, rfl, rfl⟩

/-! ### The accesses that go through, and the refusals by name -/

section
variable {s : State}

theorem execRdCtrl_ok (hh : s.handle.isSome = true) : execRdCtrl s =
    .next { s with regT := s.ctrl, trace := s.trace ++ [.acc .read .ctrl s.ctrl] } :=
  overWindow_mapped hh _ _

theorem execRdRdeng_ok (hh : s.handle.isSome = true) : execRdRdeng s =
    .next { s with regT := s.rdeng, trace := s.trace ++ [.acc .read .rdeng s.rdeng] } :=
  overWindow_mapped hh _ _

theorem execRdCs_ok (hh : s.handle.isSome = true) : execRdCs s =
    .next { s with regT := s.cs, trace := s.trace ++ [.acc .read .cs s.cs] } :=
  overWindow_mapped hh _ _

/-- R81 (b): a write that clears an enable, read bit by bit. -/
theorem clearsEnable_iff {old new : Byte} : clearsEnable old new = true ↔
    old.getLsbD Config.pSpe = true ∧ new.getLsbD Config.pSpe = false ∨
      old.getLsbD Config.pMstr = true ∧ new.getLsbD Config.pMstr = false := by
  simp [clearsEnable, bit]

theorem execWrCtrl_ok (hh : s.handle.isSome = true) {v : Byte}
    (hv : s.iface = .core → clearsEnable s.ctrl v = false) :
    execWrCtrl v s = .next { s with ctrl := v, trace := s.trace ++ [.acc .write .ctrl v] } :=
  (overWindow_mapped hh _ _).trans (if_neg (by simpa using hv))

theorem execWrCtrl_clearsEnable (hh : s.handle.isSome = true) (hc : s.iface = .core) {v : Byte}
    (hv : clearsEnable s.ctrl v = true) : execWrCtrl v s = .refused .clearsEnable :=
  (overWindow_mapped hh _ _).trans (if_pos (by simp [hc, hv]))

theorem execRdFifo_notEnabled (hh : s.handle.isSome = true) (hc : s.iface = .core)
    (ho : softwareOwned s.ctrl s.rdeng = false) : execRdFifo s = .refused .notEnabled :=
  (overWindow_mapped hh _ _).trans (if_pos (by simp [hc, ho]))

theorem execRdFifo_empty (hh : s.handle.isSome = true) (ho : softwareOwned s.ctrl s.rdeng = true)
    (hr : s.rxf = []) : execRdFifo s = .refused .rxfEmpty := by
  simp [execRdFifo, overWindow_mapped hh, ho, hr]

theorem execWrFifo_ok (hh : s.handle.isSome = true) (hc : s.iface = .core)
    (ho : softwareOwned s.ctrl s.rdeng = true) (hd : s.txf.length ≠ Config.txDepth) (b : Byte) :
    execWrFifo b s = .next { s with txf := s.txf ++ [b], trace := s.trace ++ [.acc .write .fifo b] } := by
  simp [execWrFifo, overWindow_mapped hh, hc, ho, hd, State.emit]

theorem execWrFifo_notEnabled (hh : s.handle.isSome = true) (hc : s.iface = .core)
    (ho : softwareOwned s.ctrl s.rdeng = false) (b : Byte) : execWrFifo b s = .refused .notEnabled := by
  simp [execWrFifo, overWindow_mapped hh, hc, ho]

theorem execWrFifo_full (hh : s.handle.isSome = true) (hc : s.iface = .core)
    (ho : softwareOwned s.ctrl s.rdeng = true) (hd : s.txf.length = Config.txDepth) (b : Byte) :
    execWrFifo b s = .refused .txfFull := by
  simp [execWrFifo, overWindow_mapped hh, hc, ho, hd]

/-- R93: behind the echo double a push stands at once where it is read. -/
theorem execWrFifo_double (hh : s.handle.isSome = true) (hd : s.iface = .echoDouble) (b : Byte) :
    execWrFifo b s = .next { s with rxf := s.rxf ++ [b], trace := s.trace ++ [.acc .write .fifo b] } := by
  simp [execWrFifo, overWindow_mapped hh, hd, State.emit]

/-- R87 (b): a write that sets `REN`, read bit by bit. -/
theorem setsReadEngine_iff {old new : Byte} : setsReadEngine old new = true ↔
    old.getLsbD Config.pRen = false ∧ new.getLsbD Config.pRen = true := by
  simp [setsReadEngine, bit]

theorem execWrRdeng_ok (hh : s.handle.isSome = true) {v : Byte}
    (hv : s.iface = .core → setsReadEngine s.rdeng v = true → s.txf = [] ∧ s.cs0 ≠ .asserted) :
    execWrRdeng v s = .next { s with rdeng := v, trace := s.trace ++ [.acc .write .rdeng v] } :=
  (overWindow_mapped hh _ _).trans (if_neg (by simpa using hv))

theorem execWrRdeng_busy (hh : s.handle.isSome = true) (hc : s.iface = .core) {v : Byte}
    (hv : setsReadEngine s.rdeng v = true) (hb : s.txf ≠ [] ∨ s.cs0 = .asserted) :
    execWrRdeng v s = .refused .engineWhileBusy :=
  (overWindow_mapped hh _ _).trans (if_pos (by simpa [hc, hv] using hb))

theorem execWrCs_badPattern (hh : s.handle.isSome = true) (hc : s.iface = .core) {v : Byte}
    (hv : isCsPattern v = false) : execWrCs v s = .refused .csPattern := by
  simp [execWrCs, overWindow_mapped hh, hc, hv]

/-- R93: behind the echo double `CS` stores any byte. -/
theorem execWrCs_double (hh : s.handle.isSome = true) (hd : s.iface = .echoDouble) (v : Byte) :
    execWrCs v s = .next { s with cs := v, trace := s.trace ++ [.acc .write .cs v] } := by
  simp [execWrCs, overWindow_mapped hh, hd, State.emit]

end

/-! ### The accesses the sequencer issues (R115, R131, R140) -/

/-- The accesses the sequencer issues in `s`: no other, at these micro-states where that matters, with these bytes. -/
def Issuable (s : State) : Instr → Prop
  | .rdCtrl | .rdStat | .rdRdeng => True
  | .wrCtrl v => s.pc = .iCtrlWr ∧ v = setBits s.regT enableMask
  | .rdFifo => s.pc = .iDrainPop ∨ s.pc = .xWPop ∨ s.pc = .xRPop
  | .wrFifo _ => s.pc = .xWPush ∨ s.pc = .xRPush
  | .wrRdeng v => s.pc = .iReWr ∧ v = clearBits s.regT readEngineMask ∨
      s.pc = .sReWr ∧ v = setBits s.regT readEngineMask
  | .wrCs v => isCsPattern v = true
  | .wrStat _ | .rdRsva | .wrRsva _ | .rdCs | .rdRsvb | .wrRsvb _ | .rdRsv7 | .wrRsv7 _
  | .init _ | .xfer _ _ _ _ _ | .shutdown _ => False

/-- Every access a micro-state issues is `Issuable` there. -/
theorem issuable_of_issue {s s1 : State} {i : Instr} (h : issue s = some (i, s1)) : Issuable s i := by
  cases hp : s.pc <;> simp only [issue, hp, reduceCtorEq, Option.some.injEq, Prod.mk.injEq] at h <;>
    obtain ⟨rfl, -⟩ := h
  case iProbe | iCtrlRd | iReRd | iDrainPoll | xWPoll | xRPoll | sReRd => trivial
  case iCtrlWr => exact ⟨hp, rfl⟩
  case iReWr => exact .inl ⟨hp, rfl⟩
  case sReWr => exact .inr ⟨hp, rfl⟩
  case iDrainPop => exact .inl hp
  case xWPop => exact .inr (.inl hp)
  case xRPop => exact .inr (.inr hp)
  case xWPush => exact .inl hp
  case xRPush => exact .inr hp
  case xCsOn => exact isCsPattern_csAssert
  case iCsIdle | xCsOff => exact isCsPattern_csDeassert
  case sCs0 => exact isCsPattern_csClear

/-- The operand's draw is all that forming an access changes (R146). -/
theorem issue_draws {s s1 : State} {i : Instr} (h : issue s = some (i, s1)) : ∃ n, s1 = { s with draws := n } := by
  rcases issue_state h with rfl | rfl
  · exact ⟨_, rfl⟩
  · exact outboundByte_eq s

/-! ### The statements on the accesses -/

/-- Settles O6: the access is `execRdCtrl_ok`. -/
theorem readControlLoadsT : Obligations.ReadControlLoadsT := ⟨rfl, fun _ => execRdCtrl_ok⟩

/-- Settles O7, one clause per outcome of the write, then the shift step it enables and the byte `INIT` writes. -/
theorem writeControlStoresOrRefuses : Obligations.WriteControlStoresOrRefuses := by
  refine ⟨fun v => rfl, ?stored, ?refused, ?enables, ?issued⟩
  case stored =>
    intro s v hh hv
    refine execWrCtrl_ok hh fun hc => clearsEnable_eq_false.mpr ?_
    exact hv.resolve_left (by simp [hc])
  case refused => exact fun s v hh hc hv => execWrCtrl_clearsEnable hh hc (clearsEnable_iff.mpr hv)
  case enables =>
    intro s t v hc hspe hmstr hren htx hroom h
    obtain ⟨-, -, rfl⟩ := execWrCtrl_inv h
    simp [shiftEnabled, shiftPoised, softwareOwned, bit, hc, hspe, hmstr, hren, htx, hroom]
  case issued => exact fun s s1 v h => issuable_of_issue h

/-- Which micro-state follows depends on a sample through `RFEMPTY` alone (R82). -/
theorem follow_pc_of_rfe (p : MicroState) (s : State) {b : Byte}
    (hb : b.getLsbD Config.pRfe = s.regS.getLsbD Config.pRfe) :
    (follow p { s with regS := b }).pc = (follow p s).pc := by
  have hpick (p q : MicroState) :
      (if b.getLsbD Config.pRfe then p else q) = if s.regS.getLsbD Config.pRfe then p else q := by rw [hb]
  cases p with
  | iDrainPoll | xWPoll | xRPoll => exact hpick _ _
  | xWPop => rw [follow, follow, afterXWPop_eq, afterXWPop_eq]
  | idle | iResolve | iProbe | iHook | iCsIdle | iCtrlRd | iCtrlWr | iReRd | iReWr | iDrainPop | iRegister | xCsOn
  | xWPush | xRPush | xRPop | xCsOff | sGuard | sCs0 | sReRd | sReWr => rfl

/-- Settles O8: the sample's bits are `sampleStat_bits`. -/
theorem readStatusSamplesOccupancy : Obligations.ReadStatusSamplesOccupancy :=
  ⟨rfl, fun _ hh hc => ⟨_, execRdStat_ok hh, sampleStat_bits hc⟩, fun p s _ => follow_pc_of_rfe p s⟩

/-- Settles O9: `exec` refuses it whatever the state, and it is not `Issuable`. -/
theorem writeStatusRefused : Obligations.WriteStatusRefused :=
  fun _ _ _ => ⟨rfl, rfl, fun h => issuable_of_issue h⟩

/-- Settles O10, one clause per outcome of the push. -/
theorem pushAppendsToWriteFifo : Obligations.PushAppendsToWriteFifo := by
  refine ⟨fun b => rfl, fun s b hh hc ho hd => ⟨_, execWrFifo_ok hh hc ho hd b, rfl, ?_⟩,
    fun s b hh hc ho => execWrFifo_notEnabled hh hc ho b, fun s b hh hc ho hd => execWrFifo_full hh hc ho hd b⟩
  obtain ⟨-, -, hwfe, hwff, -⟩ := sampleStat_bits
    (s := { s with txf := s.txf ++ [b], trace := s.trace ++ [.acc .write .fifo b] }) hc
  rw [hwfe, hwff]
  simp

/-- Settles O11, one clause per outcome of the pop. -/
theorem popTakesOldestReceivedByte : Obligations.PopTakesOldestReceivedByte := by
  refine ⟨rfl, fun s b rest hh hc ho hr => ⟨_, execRdFifo_ok hh (fun _ => ho) hr, rfl, ?_⟩,
    fun s => execRdFifo_notEnabled, fun s hh _ ho => execRdFifo_empty hh ho⟩
  obtain ⟨hrfe, hrff, -⟩ := sampleStat_bits
    (s := { s with rxf := rest, regT := b, trace := s.trace ++ [.acc .read .fifo b] }) hc
  refine ⟨hrfe, fun hd => ?_⟩
  rw [hr, List.length_cons] at hd
  rw [hrff, decide_eq_false_iff_not]
  exact Nat.ne_of_lt hd

/-- Settles O12: the access is `execRdRdeng_ok`. -/
theorem readReadEngineLoadsT : Obligations.ReadReadEngineLoadsT := ⟨rfl, fun _ => execRdRdeng_ok⟩

/-- Settles O13, one clause per outcome of the write, then the two bytes the sequencer writes. -/
theorem writeReadEngineStoresOrRefuses : Obligations.WriteReadEngineStoresOrRefuses := by
  refine ⟨fun v => rfl, ?stored, ?refused, ?issued⟩
  case stored =>
    intro s v hh hv
    refine execWrRdeng_ok hh fun hc hset => ?_
    obtain ⟨hold, hnew⟩ := setsReadEngine_iff.mp hset
    simpa [hc, hold, hnew] using hv
  case refused =>
    exact fun s v hh hc hnew hold hb => execWrRdeng_busy hh hc (setsReadEngine_iff.mpr ⟨hold, hnew⟩) hb
  case issued => exact fun s s1 v h => (issuable_of_issue h).imp And.right And.right

/-- Settles O14: the access is `execRdCs_ok`, and it is not `Issuable`. -/
theorem readChipSelectLoadsT : Obligations.ReadChipSelectLoadsT :=
  ⟨rfl, fun _ => execRdCs_ok, fun _ _ h => issuable_of_issue h⟩

/-- The three patterns of `CS` with the level each gives the line (R24, R89). -/
theorem isCsPattern_level {v : Byte} {level : Cs0}
    (h : (v = 0x01#8 ∧ level = .asserted) ∨ (v = 0x11#8 ∧ level = .deasserted) ∨ (v = 0x00#8 ∧ level = .hw)) :
    isCsPattern v = true ∧ lineOf v = level := by
  rcases h with ⟨rfl, rfl⟩ | ⟨rfl, rfl⟩ | ⟨rfl, rfl⟩ <;> decide

/-- Settles O15: a pattern is stored with its level, and no other byte is a pattern. -/
theorem writeChipSelectDrivesLine : Obligations.WriteChipSelectDrivesLine := by
  refine ⟨fun v => rfl, fun s v level hh hc hv => ?_, fun s v hh hc h1 h2 h3 => ?_⟩
  · obtain ⟨hpat, hline⟩ := isCsPattern_level hv
    refine ⟨_, execWrCs_ok hh hpat, hline, ?_⟩
    rw [hc, hline]
    cases hd : s.dev <;> simp only [deviceSees, hd]
  · exact execWrCs_badPattern hh hc (by simp [isCsPattern, Config.csAssert, Config.csDeassert, Config.csClear, h1, h2, h3])

/-- Settles O16: `exec` refuses all six whatever the state, and none is `Issuable`. -/
theorem reservedOffsetsRefused : Obligations.ReservedOffsetsRefused := by
  refine fun v s =>
    ⟨fun i s1 hi h => ?_, ⟨rfl, rfl⟩, ⟨rfl, rfl⟩, ⟨rfl, rfl⟩, ⟨rfl, rfl⟩, ⟨rfl, rfl⟩, ⟨rfl, rfl⟩⟩
  have hissuable := issuable_of_issue h
  simp only [List.mem_cons, List.not_mem_nil, or_false] at hi
  rcases hi with rfl | rfl | rfl | rfl | rfl | rfl <;> exact hissuable

/-- The echo double's status byte is the drawn byte but for `RFEMPTY`. -/
theorem doubleStatByte_other (rl : Nat) (f : Byte) {n : Nat} (hn : 1 ≤ n) :
    (doubleStatByte rl f).getLsbD n = f.getLsbD n := by
  have hmask : (Config.mask Config.pRfe).getLsbD n = false := by
    simp [Config.mask, Config.pRfe, Nat.ne_of_gt hn]
  have hflag : (flagAt Config.pRfe (decide (rl = 0))).getLsbD n = false := by
    unfold flagAt
    split_ifs
    · exact hmask
    · exact BitVec.getLsbD_zero
  simp only [doubleStatByte, BitVec.getLsbD_or, BitVec.getLsbD_and, BitVec.getLsbD_not, hmask, hflag]
  simpa using BitVec.lt_of_getLsbD

/-- A sample behind the echo double (R93). -/
theorem sampleStat_double {s : State} (hd : s.iface = .echoDouble) :
    (sampleStat s).1 = doubleStatByte s.rxf.length (Config.freeByte s.draws) := by
  simp [sampleStat, hd, draw]

/-- Behind the echo double the shift engine has nothing to send (R93). -/
theorem shiftPoised_of_double {s : State} (hd : s.iface = .echoDouble) : shiftPoised s = false := by
  simp [shiftPoised, hd]

/-- Settles O18, access by access. -/
theorem echoDoubleReadsBackPushes : Obligations.EchoDoubleReadsBackPushes := by
  intro s hh hd
  have hcore : s.iface ≠ .core := by simp [hd]
  refine ⟨execWrFifo_double hh hd, ⟨_, execRdStat_ok hh, ?_, ?_⟩,
    fun b rest => execRdFifo_ok hh (absurd · hcore), fun v => execWrCtrl_ok hh (absurd · hcore),
    fun v => execWrRdeng_ok hh (absurd · hcore), execWrCs_double hh hd, step_unpoised (shiftPoised_of_double hd)⟩
  · rw [sampleStat_double hd, doubleStatByte_rfe]
  · intro n hn
    rw [sampleStat_double hd, doubleStatByte_other _ _ hn]

end Sys2Proof.Machine
end

section
/-! PROOFS. A running command is never refused (R84, R85, R87, R101, R150). In a disciplined state every access the sequencer
may issue goes through (`Disciplined.issuable_next`), and a byte to send always finds room in `RXF`
(`Disciplined.poised_enabled`), so whoever's turn it is moves. -/

namespace Sys2Proof.Machine

/-- The discipline says nothing of whose turn it is, nor of the draws. -/
theorem Disciplined.of_draws {s : State} (h : Disciplined s) (l : List Agent) (n : Nat) :
    Disciplined { s with sched := l, draws := n } := h

theorem disciplined_nextAgent {s : State} (h : Disciplined s) : Disciplined (nextAgent s).2 := by
  obtain ⟨l, n, he⟩ := nextAgent_eq s
  rw [he]
  exact h.of_draws l n

/-- R27: where the sequencer issues an access the window is mapped. -/
theorem Disciplined.mapped_of_issue {s s1 : State} {i : Instr} (h : Disciplined s) (hi : issue s = some (i, s1)) :
    s.handle.isSome = true := by
  obtain ⟨-, -, -, -, -, -, -, -, hmapped⟩ := h
  refine hmapped ?_ ?_ ?_ <;> exact fun hp => by simp [issue, hp] at hi

/-- R150: where the sequencer pops, the core is enabled and a byte is there. -/
theorem Disciplined.pop_ready {s : State} (h : Disciplined s) (hi : Issuable s .rdFifo) :
    softwareOwned s.ctrl s.rdeng = true ∧ s.rxf ≠ [] := by
  obtain ⟨-, -, hf, hc, -, hx, -, hready, -⟩ := h
  rcases hi with hp | hp | hp <;> simp only [fifoShape, controlShape, hp] at hf hc
  · exact ⟨hc, hf.2⟩
  all_goals exact ⟨(hready (hx (by rw [hp]; rfl))).2, List.ne_nil_of_length_pos (by omega)⟩

/-- R150: where the sequencer pushes, the core is enabled and nothing waits in `TXF`. -/
theorem Disciplined.push_ready {s : State} {b : Byte} (h : Disciplined s) (hi : Issuable s (.wrFifo b)) :
    softwareOwned s.ctrl s.rdeng = true ∧ s.txf = [] := by
  obtain ⟨-, -, hf, -, -, hx, -, hready, -⟩ := h
  rcases hi with hp | hp <;> simp only [fifoShape, hp] at hf <;>
    exact ⟨(hready (hx (by rw [hp]; rfl))).2, hf.1⟩

/-- R133: where `SHUTDOWN` sets `REN`, nothing waits in `TXF` and the line is not asserted. -/
theorem Disciplined.engine_ready {s : State} (h : Disciplined s) (hp : s.pc = .sReWr) :
    s.txf = [] ∧ s.cs0 ≠ .asserted := by
  obtain ⟨-, -, hf, hc, -⟩ := h
  simp only [fifoShape, controlShape, hp] at hf hc
  exact ⟨hf, by simp [State.cs0, hc]⟩

/-- Nothing in `TXF` leaves room for a push, whatever the depth of at least 1, and the echo double has no depth. -/
theorem execWrFifo_next {s : State} (hh : s.handle.isSome = true) (ho : softwareOwned s.ctrl s.rdeng = true)
    (ht : s.txf = []) (b : Byte) : ∃ t, execWrFifo b s = .next t := by
  cases hi : s.iface with
  | core => exact ⟨_, execWrFifo_ok hh hi ho (by rw [ht]; exact Config.txDepth_pos.ne) b⟩
  | echoDouble => exact ⟨_, execWrFifo_double hh hi b⟩

/-- Whatever access the sequencer may issue in a disciplined state goes through. -/
theorem Disciplined.issuable_next {s : State} {i : Instr} (h : Disciplined s) (hh : s.handle.isSome = true)
    (hi : Issuable s i) : ∃ t, exec i s = .next t := by
  cases i with
  | rdCtrl => exact ⟨_, execRdCtrl_ok hh⟩
  | rdStat => exact ⟨_, execRdStat_ok hh⟩
  | rdRdeng => exact ⟨_, execRdRdeng_ok hh⟩
  | wrCtrl v =>
    obtain ⟨-, rfl⟩ := hi
    exact ⟨_, execWrCtrl_ok hh fun _ => clearsEnable_setEnable _ _⟩
  | rdFifo =>
    obtain ⟨ho, hr⟩ := h.pop_ready hi
    exact (execRdFifo_next_iff hh ho).mpr hr
  | wrFifo b =>
    obtain ⟨ho, ht⟩ := h.push_ready hi
    exact execWrFifo_next hh ho ht b
  | wrRdeng v =>
    refine ⟨_, execWrRdeng_ok hh fun _ hset => ?_⟩
    rcases hi with ⟨-, rfl⟩ | ⟨hp, -⟩
    · simp at hset
    · exact h.engine_ready hp
  | wrCs v => exact ⟨_, execWrCs_ok hh hi⟩
  | wrStat | rdRsva | wrRsva | rdCs | rdRsvb | wrRsvb | rdRsv7 | wrRsv7 | init | xfer | shutdown => exact hi.elim

/-- The sequencer's turn away from `IDLE` goes through. -/
theorem Disciplined.seqStep_next {s : State} (h : Disciplined s) (hpc : s.pc ≠ .idle) :
    ∃ t, seqStep s = .next t := by
  cases hi : issue s with
  | none => exact ⟨_, seqStep_host hpc hi⟩
  | some x =>
    obtain ⟨i, s1⟩ := x
    have hissuable := issuable_of_issue hi
    have hmapped := h.mapped_of_issue hi
    obtain ⟨n, rfl⟩ := issue_draws hi
    obtain ⟨u, hu⟩ := (h.of_draws s.sched n).issuable_next hmapped hissuable
    exact ⟨_, seqStep_issue hpc hi hu⟩

/-- Where the shift step is enabled, the shift engine's turn goes through (R100). -/
theorem shiftStep_next {s : State} (h : shiftEnabled s = true) : ∃ t, shiftStep s = .next t := by
  obtain ⟨hp, hroom⟩ : shiftPoised s = true ∧ s.rxf.length < Config.rxDepth := by simpa [shiftEnabled] using h
  have ht : s.txf ≠ [] := fun ht => by simp [shiftPoised_of_txf_nil ht] at hp
  obtain ⟨mosi, rest, htx⟩ := List.exists_cons_of_ne_nil ht
  simp only [shiftStep, htx, if_pos hroom]
  exact ⟨_, rfl⟩

/-- R101, R150: away from `IDLE` the only byte ever to send is the one a poll awaits, and `RXF` has room for its
answer. -/
theorem Disciplined.poised_enabled {s : State} (h : Disciplined s) (hpc : s.pc ≠ .idle) (hp : shiftPoised s = true) :
    shiftEnabled s = true := by
  have ht : s.txf ≠ [] := fun ht => by simp [shiftPoised_of_txf_nil ht] at hp
  have hr : s.rxf = [] := by
    obtain ⟨-, -, hf, -, -⟩ := h
    have hlen := List.length_pos_of_ne_nil ht
    cases hq : s.pc <;> simp only [fifoShape, hq] at hf
    case xWPoll | xRPoll => exact List.eq_nil_of_length_eq_zero (by omega)
    case idle => exact absurd hq hpc
    case xWPop | xRPop | xCsOn | xWPush | xRPush | xCsOff | iRegister | iDrainPop => exact absurd hf.1 ht
    all_goals exact absurd hf ht
  rw [shiftEnabled_of_rxf_nil hr, hp]

/-- Settles O54: whoever's turn it is moves, and without a byte to send it is the sequencer's, which is not stuck. -/
theorem runningCommandIsNeverRefused : Obligations.RunningCommandIsNeverRefused := by
  intro s h hpc
  cases hp : shiftPoised s with
  | false =>
    rw [step_unpoised hp (disciplined_not_stuck h)]
    exact h.seqStep_next hpc
  | true =>
    have he := h.poised_enabled hpc hp
    rw [step_enabled he]
    cases (nextAgent s).1 with
    | shift => exact shiftStep_next (by simpa [shiftEnabled] using he)
    | seq => exact (disciplined_nextAgent h).seqStep_next (by simpa using hpc)

end Sys2Proof.Machine
end

section
/-! PROOFS. The shift engine and the device (41_shift_engine.md). A shift step needs its five conditions and fills `RXF` by
one byte (R100), out of software control bytes wait (R101), and each kind of device answers an exchange in its own way (R104,
R105). A poll loop of `XFER` is two phases, a byte to send and a byte received (`AwaitsShift`, `ByteReceived`): the sequencer's
turns keep the first, a turn of the shift engine leads to the second, and from there the next step is the pop (R102, R155). A
machine faults only where it is stuck, since no access and no micro-step does (R179 c). -/

namespace Sys2Proof.Machine

/-! ### The shift step (R100, R101) -/

/-- The five conditions of R100, read bit by bit. -/
theorem shiftEnabled_iff {s : State} (hc : s.iface = .core) : shiftEnabled s = true ↔
    s.ctrl.getLsbD Config.pSpe = true ∧ s.ctrl.getLsbD Config.pMstr = true ∧ s.rdeng.getLsbD Config.pRen = false ∧
      1 ≤ s.txf.length ∧ s.rxf.length < Config.rxDepth := by
  simp [shiftEnabled, shiftPoised, softwareOwned, bit, hc, Nat.one_le_iff_ne_zero, and_assoc]

/-- The shift engine is part of the core (R93). -/
theorem core_of_shiftPoised {s : State} (h : shiftPoised s = true) : s.iface = .core := by
  cases hi : s.iface with
  | core => rfl
  | echoDouble => simp [shiftPoised_of_double hi] at h

/-- An enabled shift step finds room in `RXF`. -/
theorem room_of_shiftEnabled {s : State} (h : shiftEnabled s = true) : s.rxf.length < Config.rxDepth := by
  simp only [shiftEnabled, Bool.and_eq_true, decide_eq_true_eq] at h
  exact h.2

/-- The state after the head `mosi` of `TXF` was exchanged for the device's answer. -/
def exchanged (s : State) (mosi : Byte) (rest : List Byte) : State :=
  { (exchange s s.cs0 mosi).2 with
    txf := rest
    rxf := s.rxf ++ [(exchange s s.cs0 mosi).1]
    trace := s.trace ++ [.xfer s.cs0 mosi (exchange s s.cs0 mosi).1] }

@[simp] theorem exchanged_txf (s : State) (mosi : Byte) (rest : List Byte) : (exchanged s mosi rest).txf = rest := rfl

@[simp] theorem exchanged_rxf (s : State) (mosi : Byte) (rest : List Byte) :
    (exchanged s mosi rest).rxf = s.rxf ++ [(exchange s s.cs0 mosi).1] := rfl

@[simp] theorem exchanged_iface (s : State) (mosi : Byte) (rest : List Byte) :
    (exchanged s mosi rest).iface = s.iface := exchange_iface s s.cs0 mosi

/-- The shift step with a byte to send and room in `RXF`. -/
theorem shiftStep_ok {s : State} {mosi : Byte} {rest : List Byte} (hroom : s.rxf.length < Config.rxDepth)
    (htx : s.txf = mosi :: rest) : shiftStep s = .next (exchanged s mosi rest) := by
  simp [shiftStep, htx, hroom, State.emit, exchanged]

/-- Out of software control the shift engine has no byte it may send (R101). -/
theorem shiftPoised_of_not_owned {s : State} (h : softwareOwned s.ctrl s.rdeng = false) : shiftPoised s = false := by
  simp [shiftPoised, h]

theorem shiftEnabled_of_not_poised {s : State} (h : shiftPoised s = false) : shiftEnabled s = false := by
  simp [shiftEnabled, h]

/-- Settles O25: the conditions are `shiftEnabled_iff`, the exchange is `shiftStep_ok`, and the flags are those of the
FIFOs' new lengths. -/
theorem shiftStepExchangesOneByte : Obligations.ShiftStepExchangesOneByte := by
  refine ⟨fun s => shiftEnabled_iff, fun s mosi rest he htx => ?_, fun s he ha => by rw [step_enabled he, ha]⟩
  have hcore := core_of_shiftPoised (shiftPoised_of_enabled he)
  obtain ⟨hrfe, hrff, hwfe, hwff, -⟩ :=
    sampleStat_bits (s := exchanged s mosi rest) ((exchanged_iface s mosi rest).trans hcore)
  have hstep := shiftStep_ok (room_of_shiftEnabled he) htx
  refine ⟨_, _, exchanged s mosi rest, rfl, rfl, hstep, ?_, hwfe, ?_, fun hd => ?_⟩
  · simp [hrfe]
  · simp [hrff]
  · rw [htx, List.length_cons] at hd
    rw [hwff, decide_eq_false_iff_not]
    exact Nat.ne_of_lt hd

/-- Settles O26: without software control the engine is not poised, and poised with `RXF` full it is blocked. -/
theorem shiftEngineWaitsOrIsRefused : Obligations.ShiftEngineWaitsOrIsRefused := by
  refine ⟨fun s ho => ?waits, fun s hc ho ht hr => ?refused⟩
  case waits =>
    have hp := shiftPoised_of_not_owned ho
    exact ⟨shiftEnabled_of_not_poised hp, step_unpoised hp⟩
  case refused => exact step_blocked (by simp [shiftPoised, hc, ho, ht]) hr

/-! ### The device (R104, R105) -/

/-- With the line not asserted the byte received is a draw, and only an arbitrary device sees the exchange (R105). -/
theorem exchange_not_asserted (s : State) {level : Cs0} (mosi : Byte) (h : level ≠ .asserted) :
    exchange s level mosi = draw (deviceSees s (.xfer level mosi)) := by
  cases level with
  | asserted => exact absurd rfl h
  | deasserted | hw => rfl

/-- Settles O27: one clause per kind of device with the line asserted, then the line not asserted. -/
theorem deviceAnswersExchange : Obligations.DeviceAnswersExchange := by
  refine ⟨?echo, ?scripted, ?arbitrary, ?scriptEnd, ?notAsserted⟩
  case echo => exact fun s mosi hd => by simp only [exchange, hd]
  case scripted => exact fun s mosi a rest hd => by simp only [exchange, hd]
  case arbitrary => exact fun s mosi seen hd => by simp only [exchange, hd]
  case scriptEnd => exact fun s mosi hd => by simp only [exchange, hd, draw, State.drawn]
  case notAsserted =>
    intro s level mosi hl
    rw [exchange_not_asserted s mosi hl]
    cases hd : s.dev <;> simp [deviceSees, hd, draw, State.drawn]

/-! ### The poll loops of `XFER` (R143, R147) -/

/-- A poll micro-state of `XFER` and the pop that ends its loop. -/
inductive PopOfPoll : MicroState → MicroState → Prop
  | write : PopOfPoll .xWPoll .xWPop
  | read : PopOfPoll .xRPoll .xRPop

theorem isPollState_iff {p : MicroState} : isPollState p = true ↔ p = .xWPoll ∨ p = .xRPoll := by
  cases p <;> simp [isPollState]

/-- Every poll has its pop. -/
theorem exists_popOfPoll {p : MicroState} (h : p = .xWPoll ∨ p = .xRPoll) : ∃ q, PopOfPoll p q := by
  rcases h with rfl | rfl
  · exact ⟨_, .write⟩
  · exact ⟨_, .read⟩

theorem PopOfPoll.isPollState {p q : MicroState} (h : PopOfPoll p q) : isPollState p = true := by
  cases h <;> rfl

theorem PopOfPoll.ne_idle {p q : MicroState} (h : PopOfPoll p q) : p ≠ .idle := by
  cases h <;> simp

/-- The sequencer's turn in a poll is one sample. -/
theorem PopOfPoll.polls {q : MicroState} {s t : State} (hq : PopOfPoll s.pc q) (h : seqStep s = .next t) :
    Polls s t s.pc q := by
  have hmicro := microStep_inv hq.ne_idle h
  generalize hp : s.pc = p at hq
  unfold MicroUpdate at hmicro
  cases hq <;> rw [hp] at hmicro <;> exact hmicro.2

/-- Over a mapped window the sequencer's turn in a poll goes through. -/
theorem PopOfPoll.seqStep_next {q : MicroState} {s : State} (hq : PopOfPoll s.pc q) (hh : s.handle.isSome = true) :
    ∃ t, seqStep s = .next t := by
  have hissue : issue s = some (.rdStat, s) := by
    generalize hp : s.pc = p at hq
    cases hq <;> simp only [issue, hp]
  exact ⟨_, seqStep_issue hq.ne_idle hissue (execRdStat_ok hh)⟩

/-! ### A served poll loop ends (R102) -/

/-- The one byte of a round-trip is still to be sent, and the shift engine may send it. -/
def AwaitsShift (s : State) : Prop := s.rxf = [] ∧ s.txf.length = 1 ∧ shiftEnabled s = true

theorem AwaitsShift.shiftEnabled {s : State} (h : AwaitsShift s) : shiftEnabled s = true := h.2.2

/-- The one byte of a round-trip has its answer. -/
def ByteReceived (s : State) : Prop := s.rxf ≠ [] ∧ s.txf = []

/-- R150, R209: in a disciplined poll the one byte of the round-trip is in one of the FIFOs. -/
theorem Disciplined.poll_phase {s : State} (h : Disciplined s) (hp : isPollState s.pc = true) :
    AwaitsShift s ∨ ByteReceived s := by
  have hone : s.txf.length + s.rxf.length = 1 := by
    obtain ⟨-, -, hf, -, -⟩ := h
    rcases isPollState_iff.mp hp with hq | hq <;> simpa only [fifoShape, hq] using hf
  by_cases hr : s.rxf = []
  · exact .inl ⟨hr, by simpa [hr] using hone, disciplined_poll_enabled h hp hr⟩
  · have hpos := List.length_pos_of_ne_nil hr
    exact .inr ⟨hr, List.eq_nil_of_length_eq_zero (by omega)⟩

/-- While the byte is to be sent a step stays in the poll; it is a sample, or the turn of the shift engine. -/
theorem AwaitsShift.step {q : MicroState} {s t : State} (h : AwaitsShift s) (hq : PopOfPoll s.pc q)
    (hs : step s = .next t) : t.pc = s.pc ∧ (AwaitsShift t ∧ ¬ shiftMoves s ∨ ByteReceived t) := by
  obtain ⟨hr, htx, he⟩ := h
  rcases step_cases hs with ⟨-, -, hshift⟩ | ⟨-, ha, hseq⟩ | ⟨hp, -, -⟩
  · obtain ⟨mosi, miso, rest, _, _, _, hcons, -, rfl⟩ := shiftStep_fields (shiftPoised_of_enabled he) hshift
    have hrest : rest = [] := by simpa [hcons] using htx
    exact ⟨rfl, .inr ⟨by simp, hrest⟩⟩
  · obtain ⟨l, n, hn⟩ := nextAgent_eq s
    rw [hn] at hseq
    obtain ⟨b, rfl⟩ := PopOfPoll.polls (s := { s with sched := l, draws := n }) hq hseq
    exact ⟨if_pos hr, .inl ⟨⟨hr, htx, he⟩, fun ⟨_, hm⟩ => by simp [ha] at hm⟩⟩
  · simp [shiftPoised_of_enabled he] at hp

/-- Once the answer is there the next step is the last sample, and the pop follows. -/
theorem ByteReceived.step {q : MicroState} {s t : State} (h : ByteReceived s) (hq : PopOfPoll s.pc q)
    (hs : step s = .next t) : t.pc = q := by
  obtain ⟨hr, htx⟩ := h
  rw [step_unpoised (shiftPoised_of_txf_nil htx) (stuck_of_rxf hr)] at hs
  obtain ⟨b, rfl⟩ := hq.polls hs
  exact if_neg hr

/-- Under `RESPONSIVE` a run from a poll whose byte is to be sent reaches, within the poll, the byte's answer. -/
theorem exists_byteReceived {r : Nat → State} {q : MicroState} (hrun : IsRun r) (hresp : Responsive r)
    (hq : PopOfPoll (r 0).pc q) (h0 : AwaitsShift (r 0)) :
    ∃ n, ByteReceived (r n) ∧ ∀ m, m ≤ n → (r m).pc = (r 0).pc := by
  by_contra hnone
  have hwaits : ∀ n, AwaitsShift (r n) ∧ ∀ m, m ≤ n → (r m).pc = (r 0).pc := by
    intro n
    induction n with
    | zero => exact ⟨h0, fun m hm => by rw [Nat.le_zero.mp hm]⟩
    | succ n ih =>
      obtain ⟨hn, hpoll⟩ := ih
      obtain ⟨hpc, hphase⟩ := hn.step (hpoll n le_rfl ▸ hq) (hrun n)
      have hpoll' : ∀ m, m ≤ n + 1 → (r m).pc = (r 0).pc := fun m hm =>
        (Nat.le_succ_iff.mp hm).elim (hpoll m) fun hm => by rw [hm, hpc, hpoll n le_rfl]
      exact ⟨(hphase.resolve_right fun hr => hnone ⟨_, hr, hpoll'⟩).1, hpoll'⟩
  obtain ⟨m, -, hmoves⟩ := hresp 0 fun m _ => (hwaits m).1.shiftEnabled
  have hpoll := (hwaits (m + 1)).2
  obtain ⟨-, ⟨-, hstill⟩ | hr⟩ := (hwaits m).1.step (hpoll m m.le_succ ▸ hq) (hrun m)
  · exact hstill hmoves
  · exact hnone ⟨_, hr, hpoll⟩

/-- A responsive run from a disciplined poll stays in the poll and then pops. -/
theorem poll_ends_in_pop {r : Nat → State} {q : MicroState} (hrun : IsRun r) (hresp : Responsive r)
    (hd : Disciplined (r 0)) (hq : PopOfPoll (r 0).pc q) :
    ∃ n, (r n).pc = q ∧ ∀ m, m < n → (r m).pc = (r 0).pc := by
  obtain ⟨n, hreceived, hpoll⟩ : ∃ n, ByteReceived (r n) ∧ ∀ m, m ≤ n → (r m).pc = (r 0).pc := by
    rcases hd.poll_phase hq.isPollState with h | h
    · exact exists_byteReceived hrun hresp hq h
    · exact ⟨0, h, fun m hm => by rw [Nat.le_zero.mp hm]⟩
  exact ⟨n + 1, hreceived.step (hpoll n le_rfl ▸ hq) (hrun n), fun m hm => hpoll m (Nat.lt_succ_iff.mp hm)⟩

/-- Settles O49: both polls are `poll_ends_in_pop`. -/
theorem responsivePollLoopsEnd : Obligations.ResponsivePollLoopsEnd := by
  intro r hrun hresp hd
  refine ⟨fun hp => ?_, fun hp => ?_⟩
  · simpa only [hp] using poll_ends_in_pop hrun hresp hd (hp ▸ .write)
  · simpa only [hp] using poll_ends_in_pop hrun hresp hd (hp ▸ .read)

/-! ### An unserved poll loop hangs (R155, R179 b) -/

/-- A step of a poll whose byte is to be sent, the turn being the sequencer's: one sample, and the turn is used up. -/
theorem step_unserved {s : State} {sched : List Agent} (hpc : s.pc = .xWPoll ∨ s.pc = .xRPoll)
    (hh : s.handle.isSome = true) (hr : s.rxf = []) (hs : s.sched = .seq :: sched) (he : shiftEnabled s = true) :
    ∃ b, step s = .next { s with
      regS := b, draws := s.draws + 1, sched := sched, trace := s.trace ++ [.acc .read .stat b] } := by
  obtain ⟨q, hq⟩ := exists_popOfPoll hpc
  have hturn : nextAgent s = (.seq, { s with sched := sched }) := by simp only [nextAgent, hs]
  obtain ⟨t, ht⟩ := PopOfPoll.seqStep_next (s := { s with sched := sched }) hq hh
  obtain ⟨b, rfl⟩ := PopOfPoll.polls (s := { s with sched := sched }) hq ht
  refine ⟨b, ?_⟩
  rw [step_enabled he, hturn]
  simpa only [hr, if_true] using ht

/-- A run of such steps: the samples are all that happens. -/
theorem run_unserved {n : Nat} {s : State} (hpc : s.pc = .xWPoll ∨ s.pc = .xRPoll) (hh : s.handle.isSome = true)
    (hr : s.rxf = []) (hs : s.sched = List.replicate n .seq) (he : shiftEnabled s = true) :
    ∃ b d tr, run n s = .next { s with regS := b, draws := d, sched := [], trace := s.trace ++ tr } ∧
      tr.length = n ∧ ∀ e ∈ tr, ∃ b, e = .acc .read .stat b := by
  induction n generalizing s with
  | zero => exact ⟨s.regS, s.draws, [], by rw [List.append_nil, ← List.replicate_zero, ← hs]; rfl, rfl, by simp⟩
  | succ n ih =>
    obtain ⟨b, hstep⟩ := step_unserved hpc hh hr hs he
    obtain ⟨b', d, tr, hrun, hlen, hall⟩ := ih (s := { s with
      regS := b, draws := s.draws + 1, sched := .replicate n .seq, trace := s.trace ++ [.acc .read .stat b] })
      hpc hh hr rfl he
    refine ⟨b', d, .acc .read .stat b :: tr, ?_, by simp [hlen], by simpa using hall⟩
    rw [run_succ hstep, hrun, List.append_assoc, List.singleton_append]

/-! ### Where the machine faults (R179 c) -/

theorem onNext_ne_fault {o : Result} (g : State → State) {f : Fault} (h : o ≠ .fault f) : onNext o g ≠ .fault f := by
  cases o with
  | fault f' => exact h
  | next | refused => simp [onNext]

theorem overWindow_ne_fault (s : State) (r : Reg) {o : Result} {f : Fault} (h : o ≠ .fault f) :
    overWindow s r o ≠ .fault f := by
  unfold overWindow
  split
  · simp
  · exact h

/-- An instruction goes through or is refused. -/
theorem exec_ne_fault (i : Instr) (s : State) (f : Fault) : exec i s ≠ .fault f := by
  cases i with
  | rdCtrl | rdStat | rdRdeng | rdCs => exact overWindow_ne_fault s _ (by simp)
  | wrCtrl | wrRdeng => exact overWindow_ne_fault s _ (by split_ifs <;> simp)
  | rdFifo => exact overWindow_ne_fault s _ (by split_ifs <;> [simp; split <;> simp])
  | wrFifo | wrCs => exact overWindow_ne_fault s _ (by split <;> [split_ifs <;> simp; simp])
  | init => simp only [exec, execInit]; split_ifs <;> simp
  | xfer => simp only [exec, execXfer]; split_ifs <;> simp
  | shutdown => simp only [exec, execShutdown]; split_ifs <;> simp
  | wrStat | rdRsva | wrRsva | rdRsvb | wrRsvb | rdRsv7 | wrRsv7 => exact nofun

theorem hostStep_ne_fault (s : State) (f : Fault) : hostStep s ≠ .fault f := by
  unfold hostStep
  split
  · simp
  · split
    · simp
    · split_ifs
      · simp
      · exact exec_ne_fault _ _ f

theorem microStep_ne_fault (s : State) (f : Fault) : microStep s ≠ .fault f := by
  unfold microStep
  split
  · exact onNext_ne_fault _ (exec_ne_fault _ _ f)
  · simp

theorem seqStep_ne_fault (s : State) (f : Fault) : seqStep s ≠ .fault f := by
  unfold seqStep
  split_ifs
  · exact hostStep_ne_fault s f
  · exact microStep_ne_fault s f

theorem shiftStep_ne_fault (s : State) (f : Fault) : shiftStep s ≠ .fault f := by
  unfold shiftStep
  split
  · simp
  · split_ifs <;> simp

/-- A step faults exactly where the machine is stuck: neither agent's turn does. -/
theorem step_fault_iff {s : State} {f : Fault} : step s = .fault f ↔ stuck s = true := by
  constructor
  · intro h
    unfold step agentStep at h
    split_ifs at h with hstuck hblocked hpoised
    · exact hstuck
    · split at h
      · exact absurd h (shiftStep_ne_fault _ f)
      · exact absurd h (seqStep_ne_fault _ f)
    · exact absurd h (seqStep_ne_fault s f)
  · intro h
    cases f with
    | stuck => exact step_stuck h

theorem stuck_iff {s : State} : stuck s = true ↔
    (s.pc = .xWPoll ∨ s.pc = .xRPoll) ∧ s.rxf = [] ∧ shiftEnabled s = false := by
  simp [stuck, isPollState_iff, and_assoc]

/-- Settles O50: the hang is `run_unserved`, the fault `step_fault_iff`. -/
theorem unservedPollLoopHangs : Obligations.UnservedPollLoopHangs := by
  refine ⟨fun n s hpc hh hr hs he => ?hang, fun s f => step_fault_iff.trans stuck_iff⟩
  case hang =>
    obtain ⟨b, d, tr, hrun, hlen, hall⟩ := run_unserved hpc hh hr hs he
    exact ⟨_, tr, hrun, rfl, rfl, rfl, hr, rfl, rfl, hlen, hall⟩

end Sys2Proof.Machine
end

section
/-! PROOFS. The micro-steps of `INIT` and `SHUTDOWN` (42_controller_lifecycle.md). A micro-state that calls the host has one
lemma per answer, one that performs an access the update of the state that the access and what follows it make. -/

namespace Sys2Proof.Machine

/-! ### The sequencer's turn away from `IDLE` -/

/-- A micro-step that performs an access formed without a draw, by micro-state. -/
theorem seqStep_access {s u : State} {p : MicroState} (i : Instr) (hpc : s.pc = p) (hi : issue s = some (i, s))
    (hu : exec i s = .next u) : seqStep s = .next (follow p u) := by
  have hne : s.pc ≠ .idle := fun hidle => by simp [issue, hidle] at hi
  rw [← hpc, seqStep_issue hne hi hu]

/-- A micro-step whose access is refused. -/
theorem seqStep_access_refused {s : State} {r : Refusal} (i : Instr) (hi : issue s = some (i, s))
    (hr : exec i s = .refused r) : seqStep s = .refused r := by
  have hne : s.pc ≠ .idle := fun hidle => by simp [issue, hidle] at hi
  rw [seqStep, if_neg hne, microStep, hi]
  exact congrArg (onNext · _) hr

/-! ### The calls to the host (R116, R118, R128) -/

section
variable {s : State}

theorem seqStep_iResolve (hpc : s.pc = .iResolve) : seqStep s = .next (microIResolve s) := by
  rw [seqStep_host (by simp [hpc]) (by simp only [issue, hpc]), microHost, hpc]

theorem seqStep_iHook (hpc : s.pc = .iHook) : seqStep s = .next (microIHook s) := by
  rw [seqStep_host (by simp [hpc]) (by simp only [issue, hpc]), microHost, hpc]

theorem seqStep_iRegister (hpc : s.pc = .iRegister) : seqStep s = .next (microIRegister s) := by
  rw [seqStep_host (by simp [hpc]) (by simp only [issue, hpc]), microHost, hpc]

theorem seqStep_sGuard (hpc : s.pc = .sGuard) : seqStep s = .next (microSGuard s) := by
  rw [seqStep_host (by simp [hpc]) (by simp only [issue, hpc]), microHost, hpc]

theorem microIResolve_unclassified (hf : Config.classify s.held.selector = none) :
    microIResolve s = raiseError s (.configuration s.held.selector) := by
  rw [microIResolve, hf]

theorem microIResolve_classified {fam : Family} (hf : Config.classify s.held.selector = some fam) :
    microIResolve s = resolveMap s fam := by
  rw [microIResolve, hf]

theorem askMap_failure (h : s.mapReply = .failure) : askMap s = (none, s) := by simp only [askMap, h]

theorem askMap_pointer {p : Nat} (h : s.mapReply = .pointer p) : askMap s = (some p, s) := by simp only [askMap, h]

/-- `Map` answers a failure: the call is traced and `MappingError` raised. -/
theorem resolveMap_none (fam : Family) (h : (askMap s).1 = none) : resolveMap s fam =
    raiseError ((askMap s).2.emit (.host (.map Config.mapLabel (Config.base fam) 8 none)))
      (.mapping (Config.base fam)) := by
  simp only [resolveMap, h, Config.winLen]

/-- `Map` answers a pointer: the call is traced and `HANDLE` set. -/
theorem resolveMap_some (fam : Family) {p : Nat} (h : (askMap s).1 = some p) : resolveMap s fam =
    ({ (askMap s).2.emit (.host (.map Config.mapLabel (Config.base fam) 8 (some p))) with
      handle := some p } : State).goto .iProbe := by
  simp only [resolveMap, h, Config.winLen]

/-- `RegisterShutdownHook` accepts. -/
theorem microIHook_accepted (h : (askRegister s s.hookReply).1 = true) : microIHook s =
    ({ (askRegister s s.hookReply).2.emit (.host (.registerShutdownHook .shutdown Config.hookContext true)) with
      hooked := true } : State).goto .iCsIdle := by
  simp only [microIHook, h, if_true]

/-- `RegisterShutdownHook` refuses. -/
theorem microIHook_refused (h : (askRegister s s.hookReply).1 = false) : microIHook s =
    raiseError
      ((askRegister s s.hookReply).2.emit (.host (.registerShutdownHook .shutdown Config.hookContext false)))
      (.registration .hook) := by
  simp only [microIHook, h, Bool.false_eq_true, if_false]

/-- `RegisterBusMaster` accepts. -/
theorem microIRegister_accepted (h : (askRegister s s.masterReply).1 = true) : microIRegister s =
    endCommand { (askRegister s s.masterReply).2.emit (.host (.registerBusMaster opTable true)) with
      master := true, lc := .ready, regST := .ok } .init (some .ok) := by
  simp only [microIRegister, h, if_true]

/-- `RegisterBusMaster` refuses. -/
theorem microIRegister_refused (h : (askRegister s s.masterReply).1 = false) : microIRegister s =
    raiseError ((askRegister s s.masterReply).2.emit (.host (.registerBusMaster opTable false)))
      (.registration .master) := by
  simp only [microIRegister, h, Bool.false_eq_true, if_false]

theorem seqStep_iResolve_unclassified (hpc : s.pc = .iResolve) (hf : Config.classify s.held.selector = none) :
    seqStep s = .next (raiseError s (.configuration s.held.selector)) := by
  rw [seqStep_iResolve hpc, microIResolve_unclassified hf]

theorem seqStep_iResolve_failure {fam : Family} (hpc : s.pc = .iResolve)
    (hf : Config.classify s.held.selector = some fam) (hm : s.mapReply = .failure) :
    seqStep s = .next (raiseError
      { s with trace := s.trace ++ [.host (.map Config.mapLabel (Config.base fam) 8 none)] }
      (.mapping (Config.base fam))) := by
  have ha := askMap_failure hm
  rw [seqStep_iResolve hpc, microIResolve_classified hf, resolveMap_none fam (by rw [ha]), ha]
  rfl

theorem seqStep_iResolve_pointer {fam : Family} {p : Nat} (hpc : s.pc = .iResolve)
    (hf : Config.classify s.held.selector = some fam) (hm : s.mapReply = .pointer p) :
    seqStep s = .next { s with
      pc := .iProbe, handle := some p
      trace := s.trace ++ [.host (.map Config.mapLabel (Config.base fam) 8 (some p))] } := by
  have ha := askMap_pointer hm
  rw [seqStep_iResolve hpc, microIResolve_classified hf, resolveMap_some fam (by rw [ha]), ha]
  rfl

theorem seqStep_iHook_ok (hpc : s.pc = .iHook) (hr : s.hookReply = .ok) :
    seqStep s = .next { s with
      pc := .iCsIdle, hooked := true
      trace := s.trace ++ [.host (.registerShutdownHook .shutdown Config.hookContext true)] } := by
  have ha : askRegister s s.hookReply = (true, s) := by rw [hr]; rfl
  rw [seqStep_iHook hpc, microIHook_accepted (by rw [ha]), ha]
  rfl

theorem seqStep_iHook_fail (hpc : s.pc = .iHook) (hr : s.hookReply = .fail) :
    seqStep s = .next (raiseError
      { s with trace := s.trace ++ [.host (.registerShutdownHook .shutdown Config.hookContext false)] }
      (.registration .hook)) := by
  have ha : askRegister s s.hookReply = (false, s) := by rw [hr]; rfl
  rw [seqStep_iHook hpc, microIHook_refused (by rw [ha]), ha]
  rfl

theorem seqStep_iRegister_ok (hpc : s.pc = .iRegister) (hr : s.masterReply = .ok) :
    seqStep s = .next { s with
      pc := .idle, master := true, lc := .ready, regST := .ok, held := {}
      trace := s.trace ++ [.host (.registerBusMaster opTable true)] ++ [.done .init (some .ok)] } := by
  have ha : askRegister s s.masterReply = (true, s) := by rw [hr]; rfl
  rw [seqStep_iRegister hpc, microIRegister_accepted (by rw [ha]), ha]
  rfl

theorem seqStep_iRegister_fail (hpc : s.pc = .iRegister) (hr : s.masterReply = .fail) :
    seqStep s = .next (raiseError
      { s with trace := s.trace ++ [.host (.registerBusMaster opTable false)] } (.registration .master)) := by
  have ha : askRegister s s.masterReply = (false, s) := by rw [hr]; rfl
  rw [seqStep_iRegister hpc, microIRegister_refused (by rw [ha]), ha]
  rfl

/-! ### The accesses of `INIT` (R117, R119 to R127) -/

/-- The device after a write of `CS` that gives the line a level: told behind the core, not behind the echo double (log 9). -/
def toldLevel (s : State) (level : Cs0) : Device :=
  match s.iface with
  | .core => (deviceSees s (.cs level)).dev
  | .echoDouble => s.dev

/-- The warning of `I_PROBE`, where it is due. -/
def probeWarning (rdeng : Byte) : List Event :=
  if bit rdeng Config.pRen then [] else [.diag .warning .readEngineOff]

theorem seqStep_iProbe (hpc : s.pc = .iProbe) (hh : s.handle.isSome = true) :
    seqStep s = .next { s with
      pc := .iHook, regT := s.rdeng
      trace := s.trace ++ [.acc .read .rdeng s.rdeng] ++ probeWarning s.rdeng } := by
  rw [seqStep_access .rdRdeng hpc (by simp only [issue, hpc]) (execRdRdeng_ok hh)]
  cases hren : bit s.rdeng Config.pRen <;> simp [follow, afterIProbe, probeWarning, hren, State.emit, State.goto]

theorem seqStep_iCsIdle (hpc : s.pc = .iCsIdle) (hh : s.handle.isSome = true) :
    seqStep s = .next { s with
      pc := .iCtrlRd, cs := 0x11#8, dev := toldLevel s .deasserted
      trace := s.trace ++ [.acc .write .cs 0x11#8] } := by
  have hexec := execWrCs_ok hh isCsPattern_csDeassert
  rw [lineOf_csDeassert] at hexec
  exact seqStep_access csOff hpc (by simp only [issue, hpc]) hexec

theorem seqStep_iCtrlRd (hpc : s.pc = .iCtrlRd) (hh : s.handle.isSome = true) :
    seqStep s = .next { s with
      pc := .iCtrlWr, regT := s.ctrl, trace := s.trace ++ [.acc .read .ctrl s.ctrl] } :=
  seqStep_access .rdCtrl hpc (by simp only [issue, hpc]) (execRdCtrl_ok hh)

theorem seqStep_iCtrlWr (hpc : s.pc = .iCtrlWr) (hh : s.handle.isSome = true) :
    seqStep s = .next { s with
      pc := .iReRd, ctrl := setBits s.regT enableMask
      trace := s.trace ++ [.acc .write .ctrl (setBits s.regT enableMask)] } :=
  seqStep_access (.wrCtrl (setBits s.regT enableMask)) hpc (by simp only [issue, hpc])
    (execWrCtrl_ok hh fun _ => clearsEnable_setEnable _ _)

theorem seqStep_iReRd (hpc : s.pc = .iReRd) (hh : s.handle.isSome = true) :
    seqStep s = .next { s with
      pc := .iReWr, regT := s.rdeng, trace := s.trace ++ [.acc .read .rdeng s.rdeng] } :=
  seqStep_access .rdRdeng hpc (by simp only [issue, hpc]) (execRdRdeng_ok hh)

theorem seqStep_iReWr (hpc : s.pc = .iReWr) (hh : s.handle.isSome = true) :
    seqStep s = .next { s with
      pc := .iDrainPoll, rdeng := clearBits s.regT readEngineMask
      trace := s.trace ++ [.acc .write .rdeng (clearBits s.regT readEngineMask)] } :=
  seqStep_access (.wrRdeng (clearBits s.regT readEngineMask)) hpc (by simp only [issue, hpc])
    (execWrRdeng_ok hh fun _ hset => by simp at hset)

theorem seqStep_iDrainPoll (hpc : s.pc = .iDrainPoll) (hh : s.handle.isSome = true) :
    seqStep s = .next { s with
      pc := if s.rxf = [] then .iRegister else .iDrainPop
      regS := (sampleStat s).1, draws := s.draws + 1
      trace := s.trace ++ [.acc .read .stat (sampleStat s).1] } := by
  rw [seqStep_access .rdStat hpc (by simp only [issue, hpc]) (execRdStat_ok hh)]
  simp only [follow, afterIDrainPoll, State.goto, sampleStat_rfe, decide_eq_true_eq]

theorem seqStep_iDrainPop {b : Byte} {rest : List Byte} (hpc : s.pc = .iDrainPop) (hh : s.handle.isSome = true)
    (ho : softwareOwned s.ctrl s.rdeng = true) (hr : s.rxf = b :: rest) :
    seqStep s = .next { s with
      pc := .iDrainPoll, rxf := rest, regT := b, trace := s.trace ++ [.acc .read .fifo b] } :=
  seqStep_access .rdFifo hpc (by simp only [issue, hpc]) (execRdFifo_ok hh (fun _ => ho) hr)

/-! ### The micro-steps of `SHUTDOWN` (R132 to R135) -/

theorem seqStep_sGuard_unset (hpc : s.pc = .sGuard) (hh : s.handle = none) :
    seqStep s = .next { s with
      pc := .idle, lc := .closed, regST := .ok, held := {}, trace := s.trace ++ [.done .shutdown (some .ok)] } := by
  have hskips : guardSkips Config.guardInverted s.handle = true := by
    rw [hh]
    rfl
  rw [seqStep_sGuard hpc, microSGuard, if_pos hskips]
  rfl

theorem seqStep_sGuard_set (hpc : s.pc = .sGuard) (hh : s.handle.isSome = true) :
    seqStep s = .next { s with pc := .sCs0 } := by
  have hgoes : ¬guardSkips Config.guardInverted s.handle = true := by
    rw [guardSkips, Config.guardInverted, if_neg Bool.false_ne_true, Option.isNone_iff_eq_none]
    exact Option.isSome_iff_ne_none.mp hh
  rw [seqStep_sGuard hpc, microSGuard, if_neg hgoes]
  rfl

theorem seqStep_sCs0 (hpc : s.pc = .sCs0) (hh : s.handle.isSome = true) :
    seqStep s = .next { s with
      pc := .sReRd, cs := 0x00#8, dev := toldLevel s .hw, trace := s.trace ++ [.acc .write .cs 0x00#8] } := by
  have hexec := execWrCs_ok hh isCsPattern_csClear
  rw [lineOf_csClear] at hexec
  exact seqStep_access csClr hpc (by simp only [issue, hpc]) hexec

theorem seqStep_sReRd (hpc : s.pc = .sReRd) (hh : s.handle.isSome = true) :
    seqStep s = .next { s with
      pc := .sReWr, regT := s.rdeng, trace := s.trace ++ [.acc .read .rdeng s.rdeng] } :=
  seqStep_access .rdRdeng hpc (by simp only [issue, hpc]) (execRdRdeng_ok hh)

theorem seqStep_sReWr (hpc : s.pc = .sReWr) (hh : s.handle.isSome = true)
    (hw : s.iface = .core → s.rdeng.getLsbD Config.pRen = false → s.txf = [] ∧ s.cs0 ≠ .asserted) :
    seqStep s = .next { s with
      pc := .idle, rdeng := setBits s.regT readEngineMask, lc := .closed, regST := .ok, held := {}
      trace := s.trace ++ [.acc .write .rdeng (setBits s.regT readEngineMask)] ++ [.done .shutdown (some .ok)] } :=
  seqStep_access (.wrRdeng (setBits s.regT readEngineMask)) hpc (by simp only [issue, hpc])
    (execWrRdeng_ok hh fun hc hset => hw hc (setsReadEngine_iff.mp hset).1)

/-- `T | M_REN` has `REN` set (R135). -/
theorem setReadEngine_ren (v : Byte) : (setBits v readEngineMask).getLsbD Config.pRen = true :=
  setReadEngine_bits v Config.pRen (by decide)

theorem seqStep_sReWr_busy (hpc : s.pc = .sReWr) (hh : s.handle.isSome = true) (hc : s.iface = .core)
    (hren : s.rdeng.getLsbD Config.pRen = false) (hb : s.txf ≠ [] ∨ s.cs0 = .asserted) :
    seqStep s = .refused .engineWhileBusy :=
  seqStep_access_refused (.wrRdeng (setBits s.regT readEngineMask)) (by simp only [issue, hpc])
    (execWrRdeng_busy hh hc (setsReadEngine_iff.mpr ⟨hren, setReadEngine_ren _⟩) hb)

end

/-! ### The statements on the micro-steps -/

/-- Settles O28: one clause per answer of `classify` and `Map`. -/
theorem resolveMapsTheWindow : Obligations.ResolveMapsTheWindow := by
  refine ⟨fun s => seqStep_iResolve_unclassified, fun s fam => seqStep_iResolve_failure,
    fun s fam p => seqStep_iResolve_pointer, fun s fam hpc hf _ => ?free⟩
  case free =>
    refine ⟨resolveMap s fam, by rw [seqStep_iResolve hpc, microIResolve_classified hf], ?_⟩
    cases ha : (askMap s).1 with
    | none =>
      rw [resolveMap_none fam ha]
      exact .inr ⟨rfl, rfl, rfl, by simp⟩
    | some p =>
      rw [resolveMap_some fam ha]
      exact .inl ⟨p, rfl, rfl⟩

/-- Settles O29: the warning is `probeWarning`. -/
theorem probeWarnsWhenReadEngineOff : Obligations.ProbeWarnsWhenReadEngineOff := by
  intro s hpc hh
  have hstep := seqStep_iProbe hpc hh
  exact ⟨fun hren => by simpa [probeWarning, bit, hren] using hstep,
    fun hren => by simpa [probeWarning, bit, hren] using hstep⟩

/-- Settles O30: one clause per answer of `RegisterShutdownHook`. -/
theorem hookRegistersShutdown : Obligations.HookRegistersShutdown := by
  refine ⟨fun s => seqStep_iHook_ok, fun s => seqStep_iHook_fail, fun s hpc _ => ⟨_, seqStep_iHook hpc, ?free⟩⟩
  case free =>
    cases ha : (askRegister s s.hookReply).1 with
    | true =>
      rw [microIHook_accepted ha]
      exact .inl ⟨rfl, rfl⟩
    | false =>
      rw [microIHook_refused ha]
      exact .inr ⟨rfl, rfl, rfl, by simp⟩

/-- Settles O31, one micro-step per clause, the bits written by `setEnable_bits` and `clearReadEngine_bits`. -/
theorem initConfiguresTheRegisters : Obligations.InitConfiguresTheRegisters := fun s hh =>
  ⟨fun hpc => ⟨_, seqStep_iCsIdle hpc hh, lineOf_csDeassert, rfl⟩, fun hpc => seqStep_iCtrlRd hpc hh,
    fun hpc => ⟨_, seqStep_iCtrlWr hpc hh, setEnable_bits s.regT⟩, fun hpc => seqStep_iReRd hpc hh,
    fun hpc => ⟨_, seqStep_iReWr hpc hh, clearReadEngine_bits s.regT⟩⟩

/-- Settles O32: the poll and the pop of the drain. -/
theorem drainPopsUntilEmpty : Obligations.DrainPopsUntilEmpty := fun _ hh =>
  ⟨fun hpc => ⟨_, seqStep_iDrainPoll hpc hh⟩, fun _ _ hpc ho hr => seqStep_iDrainPop hpc hh ho hr⟩

/-- Settles O33: the operation table, then one clause per answer of `RegisterBusMaster`. -/
theorem registerMakesTheBlockReady : Obligations.RegisterMakesTheBlockReady := by
  refine ⟨rfl, fun s => seqStep_iRegister_ok, fun s => seqStep_iRegister_fail,
    fun s hpc _ => ⟨_, seqStep_iRegister hpc, ?free⟩⟩
  case free =>
    cases ha : (askRegister s s.masterReply).1 with
    | true =>
      rw [microIRegister_accepted ha]
      exact ⟨rfl, .inl ⟨rfl, rfl, rfl⟩⟩
    | false =>
      rw [microIRegister_refused ha]
      exact ⟨rfl, .inr ⟨rfl, rfl, by simp⟩⟩

/-- Settles O34, one micro-step per clause; the write that ends `SHUTDOWN` goes through unless it sets `REN` while busy. -/
theorem shutdownMicroSteps : Obligations.ShutdownMicroSteps := by
  refine ⟨fun s => seqStep_sGuard_unset, fun s => seqStep_sGuard_set,
    fun s hpc hh => ⟨_, seqStep_sCs0 hpc hh, lineOf_csClear, rfl⟩, fun s => seqStep_sReRd,
    fun s => seqStep_sReWr_busy, fun s hpc hh hw => ⟨_, seqStep_sReWr hpc hh fun hc hren => ?idle, setReadEngine_bits _⟩⟩
  case idle => simpa [hc, hren] using hw

end Sys2Proof.Machine
end

section
/-! PROOFS. Whole runs of `INIT` and `SHUTDOWN` (R129, R130, R136, R137). With `TXF` empty every step is the sequencer's, so the
micro-steps chain (`Reaches.head`). `INIT` reaches `I_HOOK` (`probed`), from there the drain (`configured`), and by induction on
`RXF` the end of the drain; what holds then (`AtRegister`) is left so whether `RegisterBusMaster` accepts or refuses. -/

namespace Sys2Proof.Machine

/-! ### Runs of the sequencer alone -/

/-- A run leads from `s` to `t`. -/
def Reaches (s t : State) : Prop := ∃ n, run n s = .next t

theorem Reaches.refl (s : State) : Reaches s s := ⟨0, rfl⟩

theorem Reaches.trans {s t u : State} (h₁ : Reaches s t) (h₂ : Reaches t u) : Reaches s u := by
  obtain ⟨m, hm⟩ := h₁
  obtain ⟨n, hn⟩ := h₂
  exact ⟨m + n, (run_add hm).trans hn⟩

/-- With nothing to send and outside a poll of `XFER`, the next step is the sequencer's. -/
theorem Reaches.head {s t u : State} (h : seqStep s = .next t) (htx : s.txf = []) (hp : isPollState s.pc = false)
    (hr : Reaches t u) : Reaches s u := by
  obtain ⟨n, hn⟩ := hr
  have hstep : step s = .next t := (step_unpoised (shiftPoised_of_txf_nil htx) (stuck_of_not_poll hp)).trans h
  exact ⟨n + 1, (run_succ hstep n).trans hn⟩

/-! ### The accesses of a trace -/

theorem accesses_append (a b : List Event) : accesses (a ++ b) = accesses a ++ accesses b := List.filter_append ..

theorem workAccesses_append (a b : List Event) : workAccesses (a ++ b) = workAccesses a ++ workAccesses b :=
  List.filter_append ..

/-- What `INIT` emits up to `I_HOOK`. -/
def probeEvents (fam : Family) (p : Nat) (rdeng : Byte) : List Event :=
  .host (.map Config.mapLabel (Config.base fam) 8 (some p)) :: .acc .read .rdeng rdeng :: probeWarning rdeng

theorem accesses_probeEvents (fam : Family) (p : Nat) (rdeng : Byte) :
    accesses (probeEvents fam p rdeng) = [.acc .read .rdeng rdeng] := by
  unfold probeEvents probeWarning
  split_ifs <;> rfl

theorem workAccesses_probeEvents (fam : Family) (p : Nat) (rdeng : Byte) :
    workAccesses (probeEvents fam p rdeng) = [.acc .read .rdeng rdeng] := by
  unfold probeEvents probeWarning
  split_ifs <;> rfl

/-- What `INIT` emits from `I_HOOK` to the drain (R118 to R123). -/
def configureEvents (ctrl rdeng : Byte) : List Event :=
  [.host (.registerShutdownHook .shutdown Config.hookContext true), .acc .write .cs 0x11#8,
    .acc .read .ctrl ctrl, .acc .write .ctrl (setBits ctrl enableMask),
    .acc .read .rdeng rdeng, .acc .write .rdeng (clearBits rdeng readEngineMask)]

/-- None of them is a poll of `STAT`. -/
theorem accesses_configureEvents (ctrl rdeng : Byte) :
    accesses (configureEvents ctrl rdeng) = workAccesses (configureEvents ctrl rdeng) := rfl

/-! ### The bits of the read-modify-writes -/

/-- R129: what `INIT` writes to `CTRL` and `RDENG` is software control. -/
theorem softwareOwned_configured (ctrl rdeng : Byte) :
    softwareOwned (setBits ctrl enableMask) (clearBits rdeng readEngineMask) = true := by
  unfold softwareOwned bit
  rw [setEnable_bits _ _ (by decide), setEnable_bits _ _ (by decide), clearReadEngine_bits _ _ (by decide)]
  simp [Config.pSpe, Config.pMstr, Config.pRen]

/-- R136: what `SHUTDOWN` writes to `RDENG` ends software control. -/
theorem not_softwareOwned_setReadEngine (ctrl rdeng : Byte) :
    softwareOwned ctrl (setBits rdeng readEngineMask) = false := by
  simp [softwareOwned, bit, setReadEngine_ren]

section
variable {b : Nat} (v : Byte) (hb : b < 8)
include hb

theorem setEnable_other (hspe : b ≠ Config.pSpe) (hmstr : b ≠ Config.pMstr) :
    (setBits v enableMask).getLsbD b = v.getLsbD b := by
  have h6 : b ≠ 6 := hspe
  have h4 : b ≠ 4 := hmstr
  simp [setEnable_bits v b hb, h4, h6]

theorem clearReadEngine_other (hren : b ≠ Config.pRen) :
    (clearBits v readEngineMask).getLsbD b = v.getLsbD b := by
  have h0 : b ≠ 0 := hren
  simp [clearReadEngine_bits v b hb, h0]

theorem setReadEngine_other (hren : b ≠ Config.pRen) :
    (setBits v readEngineMask).getLsbD b = v.getLsbD b := by
  have h0 : b ≠ 0 := hren
  simp [setReadEngine_bits v b hb, h0]

end

/-! ### `INIT` up to `I_REGISTER` -/

/-- The state at `I_HOOK`: the window is mapped at `p` and the read engine was probed (R116, R117). -/
def probed (s : State) (fam : Family) (p : Nat) : State :=
  { s with pc := .iHook, handle := some p, regT := s.rdeng, trace := s.trace ++ probeEvents fam p s.rdeng }

/-- The state where the drain begins: `SHUTDOWN` is the hook and the core's registers are configured (R118 to R123). -/
def configured (s : State) (dev : Device) : State :=
  { s with
    pc := .iDrainPoll, hooked := true, cs := 0x11#8, dev := dev, ctrl := setBits s.ctrl enableMask
    rdeng := clearBits s.rdeng readEngineMask, regT := s.rdeng
    trace := s.trace ++ configureEvents s.ctrl s.rdeng }

section
variable {s : State}

theorem reaches_probed {fam : Family} {p : Nat} (hpc : s.pc = .iResolve) (htx : s.txf = [])
    (hf : Config.classify s.held.selector = some fam) (hm : s.mapReply = .pointer p) :
    Reaches s (probed s fam p) := by
  have hrun := Reaches.head (seqStep_iResolve_pointer hpc hf hm) htx (by rw [hpc]; rfl)
    (.head (seqStep_iProbe rfl rfl) htx rfl (.refl _))
  simpa [probed, probeEvents] using hrun

theorem reaches_configured (hpc : s.pc = .iHook) (hh : s.handle.isSome = true) (htx : s.txf = [])
    (hr : s.hookReply = .ok) : ∃ dev, Reaches s (configured s dev) := by
  have hrun := Reaches.head (seqStep_iHook_ok hpc hr) htx (by rw [hpc]; rfl) <|
    .head (seqStep_iCsIdle rfl hh) htx rfl <| .head (seqStep_iCtrlRd rfl hh) htx rfl <|
    .head (seqStep_iCtrlWr rfl hh) htx rfl <| .head (seqStep_iReRd rfl hh) htx rfl <|
    .head (seqStep_iReWr rfl hh) htx rfl <| .refl _
  exact ⟨_, by simpa [configured, configureEvents] using hrun⟩

/-- R126, R127: the drain pops every byte in `RXF`, in order, with a sample before each and one more at the end. -/
theorem reaches_iRegister (hpc : s.pc = .iDrainPoll) (hh : s.handle.isSome = true) (htx : s.txf = [])
    (ho : softwareOwned s.ctrl s.rdeng = true) :
    ∃ b c n tr, Reaches s { s with
        pc := .iRegister, rxf := [], regT := b, regS := c, draws := n, trace := s.trace ++ tr } ∧
      workAccesses tr = s.rxf.map (.acc .read .fifo) ∧
      (accesses tr).length = (workAccesses tr).length + (s.rxf.length + 1) := by
  have hpoll := seqStep_iDrainPoll hpc hh
  have hnot : isPollState s.pc = false := by rw [hpc]; rfl
  induction hq : s.rxf generalizing s with
  | nil =>
    rw [if_pos hq] at hpoll
    have hrun := Reaches.head hpoll htx hnot (.refl _)
    exact ⟨s.regT, _, _, [.acc .read .stat (sampleStat s).1], by rw [← hq]; exact hrun, rfl, rfl⟩
  | cons b rest ih =>
    rw [if_neg (by simp [hq])] at hpoll
    obtain ⟨b', c, n, tr, hrun, hwork, hlen⟩ := ih (s := { s with
      pc := .iDrainPoll, rxf := rest, regT := b, regS := (sampleStat s).1, draws := s.draws + 1
      trace := s.trace ++ [.acc .read .stat (sampleStat s).1] ++ [.acc .read .fifo b] })
      rfl hh htx ho (seqStep_iDrainPoll rfl hh) rfl rfl
    refine ⟨b', c, n, .acc .read .stat (sampleStat s).1 :: .acc .read .fifo b :: tr, ?run, ?work, ?polls⟩
    case run =>
      simpa using Reaches.head hpoll htx hnot (.head (seqStep_iDrainPop rfl hh ho hq) htx rfl hrun)
    case work => exact congrArg (Event.acc .read .fifo b :: ·) hwork
    case polls =>
      change (accesses tr).length + 2 = (workAccesses tr).length + 1 + (rest.length + 1 + 1)
      omega

end

/-- What holds at `I_REGISTER` of an `INIT` that went on from `s`, with the window mapped at `p` and `tr` emitted (R129). -/
structure AtRegister (s : State) (p : Nat) (tr : List Event) (t : State) : Prop where
  pc : t.pc = .iRegister
  controlled : SoftwareControlled t
  line : t.cs0 = .deasserted
  handle : t.handle = some p
  hooked : t.hooked = true
  master : t.master = s.master
  masterReply : t.masterReply = s.masterReply
  txf : t.txf = []
  mem : t.mem = s.mem
  ctrl : ∀ b, b < 8 → b ≠ Config.pSpe → b ≠ Config.pMstr → t.ctrl.getLsbD b = s.ctrl.getLsbD b
  rdeng : ∀ b, b < 8 → b ≠ Config.pRen → t.rdeng.getLsbD b = s.rdeng.getLsbD b
  trace : t.trace = s.trace ++ tr
  work : workAccesses tr =
    [.acc .read .rdeng s.rdeng, .acc .write .cs 0x11#8, .acc .read .ctrl s.ctrl, .acc .write .ctrl t.ctrl,
      .acc .read .rdeng s.rdeng, .acc .write .rdeng t.rdeng] ++ s.rxf.map (.acc .read .fifo)
  polls : (accesses tr).length = (workAccesses tr).length + (s.rxf.length + 1)

/-- An `INIT` whose selector is recognised and whose first two calls are answered reaches `I_REGISTER`. -/
theorem reaches_atRegister {s : State} {fam : Family} {p : Nat} (hpc : s.pc = .iResolve) (htx : s.txf = [])
    (hf : Config.classify s.held.selector = some fam) (hm : s.mapReply = .pointer p) (hr : s.hookReply = .ok) :
    ∃ t tr, Reaches s t ∧ AtRegister s p tr t := by
  have hprobed := reaches_probed hpc htx hf hm
  obtain ⟨dev, hconfigured⟩ := reaches_configured (s := probed s fam p) rfl rfl htx hr
  obtain ⟨_, _, _, tr, hdrained, hwork, hlen⟩ := reaches_iRegister (s := configured (probed s fam p) dev) rfl rfl htx
    (softwareOwned_configured s.ctrl s.rdeng)
  refine ⟨_, probeEvents fam p s.rdeng ++ (configureEvents s.ctrl s.rdeng ++ tr),
    hprobed.trans (hconfigured.trans hdrained), ?_⟩
  exact {
    pc := rfl
    controlled := ⟨softwareOwned_configured _ _, rfl⟩
    line := lineOf_csDeassert
    handle := rfl
    hooked := rfl
    master := rfl
    masterReply := rfl
    txf := htx
    mem := rfl
    ctrl := fun b hb => setEnable_other _ hb
    rdeng := fun b hb => clearReadEngine_other _ hb
    trace := by simp [configured, probed]
    work := by
      rw [workAccesses_append, workAccesses_append, workAccesses_probeEvents, hwork]
      rfl
    polls := by
      have hlen : (accesses tr).length = (workAccesses tr).length + (s.rxf.length + 1) := hlen
      simp only [accesses_append, workAccesses_append, workAccesses_probeEvents, accesses_probeEvents,
        accesses_configureEvents, List.length_append]
      omega }

/-! ### `INIT` from its acceptance (R129, R130) -/

/-- The state after the acceptance of an `INIT` (R115). -/
def initStarted (s : State) (sel : Option String) : State := { s with pc := .iResolve, held := { selector := sel } }

/-- What `raise E(info)` emits (R174). -/
def errorEvents (e : InitError) : List Event := [.diag .error (diagClassOf e), .done .init (some (.error e))]

/-- They come last in the trace. -/
theorem raiseError_trace_after {s u : State} {tr : List Event} (h : u.trace = s.trace ++ tr) (e : InitError) :
    (raiseError u e).trace = s.trace ++ (tr ++ errorEvents e) := by
  simp [h, errorEvents]

/-- A call to the host and the error raised on its answer are no accesses. -/
theorem accesses_append_error (tr : List Event) (call : HostCall) (e : InitError) :
    accesses (tr ++ [.host call] ++ errorEvents e) = accesses tr := by
  rw [List.append_assoc, accesses_append]
  exact List.append_nil _

theorem workAccesses_append_error (tr : List Event) (call : HostCall) (e : InitError) :
    workAccesses (tr ++ [.host call] ++ errorEvents e) = workAccesses tr := by
  rw [List.append_assoc, workAccesses_append]
  exact List.append_nil _

/-- Settles O43: `INIT` reaches `I_REGISTER`, and `RegisterBusMaster` accepts there. -/
theorem initEndsSoftwareControlled : Obligations.InitEndsSoftwareControlled := by
  intro s sel fam p hpc hl htx hf hm hh hr
  obtain ⟨t, tr, hrun, ht⟩ := reaches_atRegister (s := initStarted s sel) rfl htx hf hm hh
  have hlast := seqStep_iRegister_ok ht.pc (ht.masterReply.trans hr)
  obtain ⟨n, hn⟩ := hrun.trans (.head hlast ht.txf (by rw [ht.pc]; rfl) (.refl _))
  exact ⟨_, n, _, execInit_ok sel hpc hl, hn, rfl, rfl, rfl, ht.controlled, ht.line, ht.handle, ht.hooked, rfl,
    ht.txf, ht.mem, ht.ctrl, ht.rdeng⟩

/-- Settles O44: `INIT` runs to the point of failure, and the error raised there leaves the core as it is. -/
theorem failedInitLeavesWhatHappened : Obligations.FailedInitLeavesWhatHappened := by
  intro s sel hpc hl htx hhandle hhooked hmaster
  have haccept : exec (.init sel) s = .next (initStarted s sel) := execInit_ok sel hpc hl
  refine ⟨fun hf => ?configuration, fun fam hf hm => ?mapping, fun fam p hf hm hh => ?hook,
    fun fam p hf hm hh hr => ?master⟩
  case configuration =>
    have hlast := seqStep_iResolve_unclassified (s := initStarted s sel) rfl hf
    obtain ⟨n, hn⟩ := Reaches.head hlast htx rfl (.refl _)
    exact ⟨_, n, _, _, haccept, hn, raiseError_trace_after (List.append_nil _).symm _, rfl, rfl, rfl, hhandle, rfl,
      rfl, rfl, rfl, rfl, rfl, hhooked, hmaster⟩
  case mapping =>
    have hlast := seqStep_iResolve_failure (s := initStarted s sel) rfl hf hm
    obtain ⟨n, hn⟩ := Reaches.head hlast htx rfl (.refl _)
    exact ⟨_, n, _, _, haccept, hn, raiseError_trace_after rfl _, rfl, rfl, rfl, hhandle, rfl,
      rfl, rfl, rfl, rfl, rfl, hhooked, hmaster⟩
  case hook =>
    have hprobed := reaches_probed (s := initStarted s sel) rfl htx hf hm
    have hlast := seqStep_iHook_fail (s := probed (initStarted s sel) fam p) rfl hh
    obtain ⟨n, hn⟩ := hprobed.trans (.head hlast htx rfl (.refl _))
    refine ⟨_, n, _, _, haccept, hn, raiseError_trace_after (List.append_assoc ..) _, rfl, rfl, rfl, rfl, ?_, rfl,
      rfl, rfl, rfl, rfl, hhooked, hmaster⟩
    rw [accesses_append_error]
    exact accesses_probeEvents fam p s.rdeng
  case master =>
    obtain ⟨t, tr, hrun, ht⟩ := reaches_atRegister (s := initStarted s sel) rfl htx hf hm hh
    have hlast := seqStep_iRegister_fail ht.pc (ht.masterReply.trans hr)
    obtain ⟨n, hn⟩ := hrun.trans (.head hlast ht.txf (by rw [ht.pc]; rfl) (.refl _))
    have htrace : t.trace ++ [.host (.registerBusMaster opTable false)] =
        s.trace ++ (tr ++ [.host (.registerBusMaster opTable false)]) := by
      rw [ht.trace, List.append_assoc]
      rfl
    refine ⟨_, n, _, _, haccept, hn, raiseError_trace_after htrace _, rfl, rfl, rfl, ht.handle, ?work, ?polls,
      ht.controlled, ht.line, ht.txf, ht.hooked, ht.master.trans hmaster, ht.ctrl, ht.rdeng⟩
    case work =>
      rw [workAccesses_append_error]
      exact ht.work
    case polls =>
      rw [accesses_append_error, workAccesses_append_error]
      exact ht.polls

/-! ### `SHUTDOWN` from its acceptance (R136, R137) -/

/-- The state after the acceptance of a `SHUTDOWN` (R131). -/
def shutdownStarted (s : State) (ctx : Nat) : State := { s with pc := .sGuard, held := { ctx := ctx } }

/-- Settles O45: the four micro-steps with `HANDLE` set, the guard alone with it unset. -/
theorem shutdownRestoresTheReadEngine : Obligations.ShutdownRestoresTheReadEngine := by
  refine ⟨fun s ctx hpc hl hh htx => ?mapped, fun s ctx hpc hl hh htx => ?unmapped⟩
  case mapped =>
    have hline : lineOf 0x00#8 = .hw := lineOf_csClear
    have hguard := seqStep_sGuard_set (s := shutdownStarted s ctx) rfl hh
    obtain ⟨n, hn⟩ := Reaches.head hguard htx rfl <| .head (seqStep_sCs0 rfl hh) htx rfl <|
      .head (seqStep_sReRd rfl hh) htx rfl <|
      .head (seqStep_sReWr rfl hh fun _ _ => ⟨htx, by simp [State.cs0, hline]⟩) htx rfl <| .refl _
    exact ⟨_, n, _, execShutdown_ok ctx hpc hl, hn, rfl, rfl, rfl, rfl, hline, setReadEngine_ren _,
      fun b hb => setReadEngine_other _ hb, rfl, rfl, rfl, rfl, rfl, rfl, rfl,
      fun hc => by simpa [not_softwareOwned_setReadEngine] using hc.1⟩
  case unmapped =>
    have hguard := seqStep_sGuard_unset (s := shutdownStarted s ctx) rfl hh
    obtain ⟨n, hn⟩ := Reaches.head hguard htx rfl (.refl _)
    refine ⟨_, n, execShutdown_ok ctx hpc hl, hn.trans ?_⟩
    rw [← hpc]
    rfl

/-- Settles O46: `SHUTDOWN` leaves `RXF` as `INIT` left it, empty, and a sample says so. -/
theorem drainAfterShutdownFindsNothing : Obligations.DrainAfterShutdownFindsNothing := by
  intro s sel fam p ctx hpc hl htx hf hm hh hr
  obtain ⟨s1, n, t, hinit, hrun, htpc, htl, htst, hcontrolled, -, hthandle, -, -, httx, -⟩ :=
    initEndsSoftwareControlled s sel fam p hpc hl htx hf hm hh hr
  obtain ⟨u1, m, u, hshut, hrun', hupc, hul, -, -, -, -, -, -, hurx, -, huhandle, -⟩ :=
    shutdownRestoresTheReadEngine.1 t ctx htpc (by simp [htl]) (by simp [hthandle]) httx
  have hempty : u.rxf = [] := hurx.trans hcontrolled.2
  refine ⟨s1, n, t, u1, m, u, _, hinit, hrun, htpc, htst, hshut, hrun', hupc, hul, hempty,
    execRdStat_ok (by simp [huhandle, hthandle]), ?_⟩
  have hrfe : (sampleStat u).1.getLsbD Config.pRfe = decide (u.rxf = []) := sampleStat_rfe u
  rw [hrfe, decide_eq_true hempty]

end Sys2Proof.Machine
end

section
/-! PROOFS. The two invariants of a run of commands, the discipline (R150, R205 to R211) and the bracketing of the trace
(R154). Each is kept by the shift engine's turn, by the acceptance of a command, by the effects of the micro-states without
an access (`HostUpdate`) and by every other micro-step (`MicroUpdate`), hence by every step. -/

namespace Sys2Proof.Machine

/-! ### Micro-states without an access -/

/-- The effects of the micro-states that call the host or guard `SHUTDOWN` (R116, R118, R128, R132, R174). -/
inductive HostUpdate (s : State) : State → Prop
  /-- An error of `INIT` is raised. -/
  | failed {st : Status} {n : Nat} {tr : List Event} : isInitState s.pc = true → accesses tr = [] →
      HostUpdate s { s with
        pc := .idle, lc := .failed, regST := st, held := {}, draws := n, trace := s.trace ++ tr }
  | mapped {p n : Nat} {tr : List Event} : s.pc = .iResolve → accesses tr = [] →
      HostUpdate s { s with pc := .iProbe, handle := some p, draws := n, trace := s.trace ++ tr }
  | hooked {n : Nat} {tr : List Event} : s.pc = .iHook → accesses tr = [] →
      HostUpdate s { s with pc := .iCsIdle, hooked := true, draws := n, trace := s.trace ++ tr }
  | registered {n : Nat} {tr : List Event} : s.pc = .iRegister → accesses tr = [] →
      HostUpdate s { s with
        pc := .idle, lc := .ready, master := true, regST := .ok, held := {}, draws := n, trace := s.trace ++ tr }
  /-- `SHUTDOWN` ends without touching the core. -/
  | skipped {tr : List Event} : s.pc = .sGuard → accesses tr = [] →
      HostUpdate s { s with pc := .idle, lc := .closed, regST := .ok, held := {}, trace := s.trace ++ tr }
  | entered : s.pc = .sGuard → s.handle.isSome = true → HostUpdate s { s with pc := .sCs0 }

theorem hostUpdate_raiseError {s : State} (hi : isInitState s.pc = true) (n : Nat) {tr : List Event}
    (htr : accesses tr = []) (e : InitError) :
    HostUpdate s (raiseError { s with draws := n, trace := s.trace ++ tr } e) := by
  have heq : raiseError { s with draws := n, trace := s.trace ++ tr } e = { s with
      pc := .idle, lc := .failed, regST := .error e, held := {}, draws := n
      trace := s.trace ++ (tr ++ errorEvents e) } := by
    simp [raiseError, endCommand, State.emit, errorEvents]
  rw [heq]
  exact .failed hi (by rw [accesses_append, htr]; rfl)

theorem microIResolve_update {s : State} (hp : s.pc = .iResolve) : HostUpdate s (microIResolve s) := by
  have hi : isInitState s.pc = true := by rw [hp]; rfl
  cases hf : Config.classify s.held.selector with
  | none =>
    rw [microIResolve_unclassified hf]
    simpa using hostUpdate_raiseError hi s.draws (tr := []) rfl (.configuration s.held.selector)
  | some fam =>
    obtain ⟨n, hn⟩ := askMap_eq s
    rw [microIResolve_classified hf]
    cases hm : (askMap s).1 with
    | none =>
      rw [resolveMap_none fam hm, hn]
      exact hostUpdate_raiseError hi n rfl _
    | some p =>
      rw [resolveMap_some fam hm, hn]
      exact .mapped hp rfl

theorem microIHook_update {s : State} (hp : s.pc = .iHook) : HostUpdate s (microIHook s) := by
  obtain ⟨n, hn⟩ := askRegister_eq s s.hookReply
  cases ha : (askRegister s s.hookReply).1 with
  | true =>
    rw [microIHook_accepted ha, hn]
    exact .hooked hp rfl
  | false =>
    rw [microIHook_refused ha, hn]
    exact hostUpdate_raiseError (by rw [hp]; rfl) n rfl _

theorem microIRegister_update {s : State} (hp : s.pc = .iRegister) : HostUpdate s (microIRegister s) := by
  obtain ⟨n, hn⟩ := askRegister_eq s s.masterReply
  cases ha : (askRegister s s.masterReply).1 with
  | true =>
    rw [microIRegister_accepted ha, hn]
    simp only [endCommand, State.emit, List.append_assoc]
    exact .registered hp rfl
  | false =>
    rw [microIRegister_refused ha, hn]
    exact hostUpdate_raiseError (by rw [hp]; rfl) n rfl _

theorem microSGuard_update {s : State} (hp : s.pc = .sGuard) : HostUpdate s (microSGuard s) := by
  unfold microSGuard
  split_ifs with hskips
  · exact .skipped (tr := [.done .shutdown (some .ok)]) hp rfl
  · refine .entered hp ?_
    simpa [guardSkips, Config.guardInverted, Option.isSome_iff_ne_none] using hskips

/-- A micro-step that performs no access is one of these. -/
theorem MicroUpdate.hostUpdate {s t : State} (h : MicroUpdate s t) (hi : issue s = none) : HostUpdate s t := by
  unfold MicroUpdate at h
  cases hp : s.pc <;> simp only [issue, hp, reduceCtorEq] at hi h
  case iResolve => exact h ▸ microIResolve_update hp
  case iHook => exact h ▸ microIHook_update hp
  case iRegister => exact h ▸ microIRegister_update hp
  case sGuard => exact h ▸ microSGuard_update hp

/-- The probe's warning is all that distinguishes the two ways out of `I_PROBE` (R117). -/
theorem afterIProbe_eq (s : State) :
    afterIProbe s = { s with pc := .iHook, trace := s.trace ++ probeWarning s.regT } := by
  unfold afterIProbe probeWarning
  split_ifs <;> simp [State.goto, State.emit]

/-! ### The sequencer's step in a run of commands -/

/-- With commands alone in the queue the sequencer waits, accepts a command, or makes a micro-step (R33, R63, R214). -/
theorem CommandsOnly.seqStep_cases {s t : State} (h : CommandsOnly s) (hs : seqStep s = .next t) :
    t = s ∨
      (s.pc = .idle ∧ ∃ i rest, isAccess i = false ∧ CommandsOnly { s with requests := rest } ∧
        exec i { s with requests := rest } = .next t) ∨
      MicroUpdate s t := by
  rcases Machine.seqStep_cases hs with ⟨-, -, rfl⟩ | ⟨hp, c, rest, i, hr, hd, -, he⟩ | ⟨hne, -⟩ | ⟨hne, -⟩
  · exact .inl rfl
  · have hc : ∀ c' ∈ c :: rest, isCommand c' = true := hr ▸ h
    have hi : isAccess i = false := by
      cases c with
      | ra16 => exact Bool.noConfusion (hc _ (.head _))
      | sc8 => exact not_isAccess_of_decodeCommand hd
    exact .inr (.inl ⟨hp, i, rest, hi, fun c' hc' => hc c' (.tail _ hc'), he⟩)
  all_goals exact .inr (.inr (microStep_inv hne hs))

/-! ### The lifecycle at each micro-state (R27, R28) -/

/-- A command's micro-program does not go over into another's: `q` is `IDLE`, or of the same program as `p`. -/
def StaysInProgram (p q : MicroState) : Prop :=
  (isInitState q = true → isInitState p = true) ∧ (isXferState q = true → isXferState p = true) ∧
    (isShutdownState q = true → isShutdownState p = true)

/-- A micro-step that keeps `LC` and, in `READY`, software control keeps the lifecycle in order. -/
theorem lifecycleShape_next {s t : State} {p : MicroState} (h : lifecycleShape s) (hp : s.pc = p)
    (hh : t.handle.isSome = true)
    (ho : s.lc = .ready → softwareOwned t.ctrl t.rdeng = softwareOwned s.ctrl s.rdeng := by exact fun _ => rfl)
    (hlc : t.lc = s.lc := by rfl) (hstay : StaysInProgram p t.pc := by exact ⟨id, id, id⟩) : lifecycleShape t := by
  obtain ⟨hinit, hxfer, hshut, hready, -⟩ := h
  obtain ⟨hpinit, hpxfer, hpshut⟩ := hstay
  rw [hp] at hinit hxfer hshut
  rw [← hlc] at hinit hxfer hshut hready ho
  exact ⟨hinit ∘ hpinit, hxfer ∘ hpxfer, hshut ∘ hpshut, fun hr => ⟨hh, (ho hr).trans (hready hr).2⟩, fun _ _ _ => hh⟩

/-- At the end of a command all that is to show is that `READY` has a mapped window in software's hands. -/
theorem lifecycleShape_idle {t : State} (hp : t.pc = .idle)
    (hr : t.lc = .ready → t.handle.isSome = true ∧ softwareOwned t.ctrl t.rdeng = true) : lifecycleShape t := by
  refine ⟨?_, ?_, ?_, hr, fun h => absurd hp h⟩ <;> rw [hp] <;> exact Bool.noConfusion

theorem not_isXferState_of_isInitState {p : MicroState} (h : isInitState p = true) : isXferState p = false := by
  revert h
  cases p <;> decide

/-! ### The FIFOs at each micro-state (R150) -/

/-- Outside a transaction nothing waits in `TXF` (R205). -/
theorem txf_of_fifoShape {s : State} (h : fifoShape s) (hp : isXferState s.pc = false) : s.txf = [] := by
  unfold fifoShape at h
  cases hq : s.pc <;> simp only [hq] at h hp
  case idle | iRegister | iDrainPop => exact h.1
  case xCsOn | xWPush | xWPoll | xWPop | xRPush | xRPoll | xRPop | xCsOff => cases hp
  all_goals exact h

/-! ### The micro-steps keep the discipline (R150, R205 to R211) -/

/-- What `INIT` writes to `CTRL` enables the core as a master (R121). -/
theorem setEnable_enabled (v : Byte) :
    bit (setBits v enableMask) Config.pSpe = true ∧ bit (setBits v enableMask) Config.pMstr = true :=
  ⟨setEnable_bits v Config.pSpe (by decide), setEnable_bits v Config.pMstr (by decide)⟩

/-- With the core enabled, clearing `REN` gives software control (R123). -/
theorem softwareOwned_clearReadEngine {ctrl : Byte} (v : Byte)
    (h : bit ctrl Config.pSpe = true ∧ bit ctrl Config.pMstr = true) :
    softwareOwned ctrl (clearBits v readEngineMask) = true := by
  have hren : bit (clearBits v readEngineMask) Config.pRen = false := clearReadEngine_bits v Config.pRen (by decide)
  rw [softwareOwned, h.1, h.2, hren]
  rfl

/-- The effects of the micro-states without an access, case by case. -/
theorem Disciplined.hostUpdate {s t : State} (h : Disciplined s) (hu : HostUpdate s t) : Disciplined t := by
  obtain ⟨hcmd, hdouble, hfifo, hcontrol, hlife⟩ := h
  have ⟨_, _, _, _, hmapped⟩ := hlife
  have htx (hp : isXferState s.pc = false) : s.txf = [] := txf_of_fifoShape hfifo hp
  cases hu with
  | failed hp =>
    have ht := htx (not_isXferState_of_isInitState hp)
    exact ⟨hcmd, fun _ => ht, ⟨ht, nofun⟩, trivial, lifecycleShape_idle rfl nofun⟩
  | mapped hp =>
    exact ⟨hcmd, hdouble, htx (by rw [hp]; rfl), trivial, lifecycleShape_next hlife hp rfl⟩
  | hooked hp =>
    have hh := hmapped (by simp [hp]) (by simp [hp]) (by simp [hp])
    exact ⟨hcmd, hdouble, htx (by rw [hp]; rfl), trivial, lifecycleShape_next hlife hp hh⟩
  | registered hp =>
    have hh := hmapped (by simp [hp]) (by simp [hp]) (by simp [hp])
    simp only [fifoShape, controlShape, hp] at hfifo hcontrol
    exact ⟨hcmd, hdouble, ⟨hfifo.1, fun _ => hfifo.2⟩, trivial, lifecycleShape_idle rfl fun _ => ⟨hh, hcontrol⟩⟩
  | skipped hp =>
    exact ⟨hcmd, hdouble, ⟨htx (by rw [hp]; rfl), nofun⟩, trivial, lifecycleShape_idle rfl nofun⟩
  | entered hp hh =>
    exact ⟨hcmd, hdouble, htx (by rw [hp]; rfl), trivial, lifecycleShape_next hlife hp hh⟩

/-- Every micro-step, micro-state by micro-state: the one byte of a round-trip is pushed into empty FIFOs, awaited and popped. -/
theorem Disciplined.microUpdate {s t : State} (h : Disciplined s) (hm : MicroUpdate s t) : Disciplined t := by
  have hhost (hi : issue s = none) : Disciplined t := h.hostUpdate (hm.hostUpdate hi)
  obtain ⟨hcmd, hdouble, hfifo, hcontrol, hlife⟩ := h
  have ⟨hinit, _, _, hready, _⟩ := hlife
  unfold MicroUpdate at hm
  cases hp : s.pc <;> simp only [fifoShape, controlShape, hp] at hm hfifo hcontrol
  case iResolve | iHook | iRegister | sGuard => exact hhost (by simp only [issue, hp])
  case iProbe =>
    rw [afterIProbe_eq] at hm
    obtain ⟨hh, rfl⟩ := hm
    exact ⟨hcmd, hdouble, hfifo, trivial, lifecycleShape_next hlife hp hh⟩
  case iCsIdle =>
    obtain ⟨hh, d, rfl⟩ := hm
    exact ⟨hcmd, hdouble, hfifo, trivial, lifecycleShape_next hlife hp hh⟩
  case iCtrlRd | iReRd | sReRd =>
    obtain ⟨hh, rfl⟩ := hm
    exact ⟨hcmd, hdouble, hfifo, hcontrol, lifecycleShape_next hlife hp hh⟩
  case iCtrlWr =>
    obtain ⟨hh, rfl⟩ := hm
    have huninit := hinit (by rw [hp]; rfl)
    exact ⟨hcmd, hdouble, hfifo, setEnable_enabled _,
      lifecycleShape_next hlife hp hh fun hr => by simp [huninit] at hr⟩
  case iReWr =>
    obtain ⟨hh, rfl⟩ := hm
    have huninit := hinit (by rw [hp]; rfl)
    exact ⟨hcmd, hdouble, hfifo, softwareOwned_clearReadEngine _ hcontrol,
      lifecycleShape_next hlife hp hh fun hr => by simp [huninit] at hr⟩
  case iDrainPoll =>
    obtain ⟨hh, b, rfl⟩ := hm
    split_ifs with hr <;> exact ⟨hcmd, hdouble, ⟨hfifo, hr⟩, hcontrol, lifecycleShape_next hlife hp hh⟩
  case iDrainPop =>
    obtain ⟨hh, b, rest, -, rfl⟩ := hm
    exact ⟨hcmd, hdouble, hfifo.1, hcontrol, lifecycleShape_next hlife hp hh⟩
  case xCsOn =>
    obtain ⟨hh, d, rfl⟩ := hm
    split_ifs <;> exact ⟨hcmd, hdouble, hfifo, rfl, lifecycleShape_next hlife hp hh⟩
  case xWPush | xRPush =>
    obtain ⟨hh, b, n, -, ⟨hc, -, rfl⟩ | ⟨-, rfl⟩⟩ := hm
    · exact ⟨hcmd, fun hd => absurd (hc.symm.trans hd) (by decide), by simp [fifoShape, hfifo], hcontrol,
        lifecycleShape_next hlife hp hh⟩
    · exact ⟨hcmd, hdouble, by simp [fifoShape, hfifo], hcontrol, lifecycleShape_next hlife hp hh⟩
  case xWPoll | xRPoll =>
    obtain ⟨hh, b, rfl⟩ := hm
    split_ifs with hr
    · exact ⟨hcmd, hdouble, hfifo, hcontrol, lifecycleShape_next hlife hp hh⟩
    · have hlen := List.length_pos_of_ne_nil hr
      have harrived : s.txf = [] ∧ s.rxf.length = 1 := ⟨List.eq_nil_of_length_eq_zero (by omega), by omega⟩
      exact ⟨hcmd, hdouble, harrived, hcontrol, lifecycleShape_next hlife hp hh⟩
  case xWPop | xRPop =>
    obtain ⟨hh, b, rest, hr, rfl⟩ := hm
    have hrest : rest = [] := by simpa [hr] using hfifo.2
    split_ifs <;> exact ⟨hcmd, hdouble, ⟨hfifo.1, hrest⟩, hcontrol, lifecycleShape_next hlife hp hh⟩
  case xCsOff =>
    obtain ⟨-, d, rfl⟩ := hm
    exact ⟨hcmd, hdouble, ⟨hfifo.1, fun _ => hfifo.2⟩, trivial, lifecycleShape_idle rfl hready⟩
  case sCs0 =>
    obtain ⟨hh, d, rfl⟩ := hm
    exact ⟨hcmd, hdouble, hfifo, rfl, lifecycleShape_next hlife hp hh⟩
  case sReWr =>
    obtain ⟨-, rfl⟩ := hm
    exact ⟨hcmd, hdouble, ⟨hfifo, nofun⟩, trivial, lifecycleShape_idle rfl nofun⟩

/-- The shift engine's turn brings the byte a poll awaits (R103, R150). -/
theorem Disciplined.shiftStep {s t : State} (h : Disciplined s) (he : shiftEnabled s = true)
    (hs : shiftStep (nextAgent s).2 = .next t) : Disciplined t := by
  obtain ⟨hcmd, hdouble, hfifo, hcontrol, hlife⟩ := h
  obtain ⟨mosi, miso, rest, _, _, _, htx, -, rfl⟩ := shiftStep_fields (shiftPoised_of_enabled he) hs
  have hcore := core_of_shiftPoised (shiftPoised_of_enabled he)
  refine ⟨hcmd, fun hd => absurd (hcore.symm.trans hd) (by decide), ?_, hcontrol, hlife⟩
  have hlen := congrArg List.length htx
  unfold fifoShape at hfifo ⊢
  cases hp : s.pc <;> simp only [hp] at hfifo ⊢
  case xWPoll | xRPoll => simp at hlen ⊢; omega
  all_goals simp [htx] at hfifo

/-- Accepting a command keeps the discipline (R115, R131, R140). -/
theorem Disciplined.accept {s t : State} {i : Instr} (h : Disciplined s) (hi : isAccess i = false)
    (he : exec i s = .next t) : Disciplined t := by
  obtain ⟨hcmd, hdouble, hfifo, -, -, -, -, hready, -⟩ := h
  cases i with
  | init sel =>
    obtain ⟨hp, hl, rfl⟩ := execInit_inv he
    simp only [fifoShape, hp] at hfifo
    exact ⟨hcmd, hdouble, hfifo.1, trivial, fun _ => hl, nofun, nofun, hready, fun _ h => absurd rfl h⟩
  | xfer w r wb rb ctx =>
    obtain ⟨hp, hl, -, rfl⟩ := execXfer_inv he
    simp only [fifoShape, hp] at hfifo
    exact ⟨hcmd, hdouble, ⟨hfifo.1, hfifo.2 hl⟩, trivial, nofun, fun _ => hl, nofun, hready, fun _ _ _ => (hready hl).1⟩
  | shutdown ctx =>
    obtain ⟨hp, hl, rfl⟩ := execShutdown_inv he
    simp only [fifoShape, hp] at hfifo
    exact ⟨hcmd, hdouble, hfifo.1, trivial, nofun, nofun, fun _ => hl, hready, fun _ _ h => absurd rfl h⟩
  | _ => cases hi

theorem Disciplined.seqStep {s t : State} (h : Disciplined s) (hs : seqStep s = .next t) : Disciplined t := by
  obtain ⟨hcmd, hshape⟩ := id h
  rcases hcmd.seqStep_cases hs with rfl | ⟨-, i, rest, hi, hrest, he⟩ | hm
  · exact h
  · exact Disciplined.accept (s := { s with requests := rest }) ⟨hrest, hshape⟩ hi he
  · exact h.microUpdate hm

/-- Settles O53: the shift engine's turn and the sequencer's keep the discipline, whoever's turn it is. -/
theorem stepKeepsDiscipline : Obligations.StepKeepsDiscipline := by
  intro s t h hs
  rcases step_cases hs with ⟨he, -, hs⟩ | ⟨-, -, hs⟩ | ⟨-, -, hs⟩
  · exact h.shiftStep he hs
  · exact (disciplined_nextAgent h).seqStep hs
  · exact h.seqStep hs

/-! ### Chip-select bracketing (R154, R209) -/

theorem bracket_append (a b : List Event) : bracket (a ++ b) = b.foldl bracketStep (bracket a) := List.foldl_append

/-- Events that are no accesses leave the bracketing as it is. -/
theorem foldl_bracketStep_of_no_access {tr : List Event} (h : accesses tr = []) (st : Option Bool) :
    tr.foldl bracketStep st = st := by
  induction tr with
  | nil => rfl
  | cons e tr ih =>
    have hstep : bracketStep st e = st := by
      cases e with
      | acc => cases h
      | xfer | host | diag | done => cases st <;> rfl
    have htr : accesses tr = [] := by
      cases e with
      | acc => cases h
      | xfer | host | diag | done => exact h
    rw [List.foldl_cons, hstep, ih htr]

/-- Once an assert came twice, the bracketing is lost for good. -/
theorem foldl_bracketStep_none (tr : List Event) : tr.foldl bracketStep none = none := by
  induction tr with
  | nil => rfl
  | cons e tr ih => exact ih

/-- An open assert stays open until a de-assert, or a second assert comes. -/
theorem foldl_bracketStep_open {tr : List Event} (h : deassertEvent ∉ tr) :
    tr.foldl bracketStep (some true) = some true ∨ tr.foldl bracketStep (some true) = none := by
  induction tr with
  | nil => exact .inl rfl
  | cons e tr ih =>
    obtain ⟨hne, htr⟩ := not_or.mp (mt List.mem_cons.mpr h)
    by_cases he : e = assertEvent
    · exact .inr (by rw [List.foldl_cons, he]; exact foldl_bracketStep_none tr)
    · have hstep : bracketStep (some true) e = some true := by simp [bracketStep, he, Ne.symm hne]
      rw [List.foldl_cons, hstep]
      exact ih htr

/-- In a trace whose bracketing is not lost a de-assert stands between two asserts. -/
theorem deassert_mem_of_bracket {a b c : List Event} {isOpen : Bool}
    (h : bracket (a ++ assertEvent :: (b ++ assertEvent :: c)) = some isOpen) : deassertEvent ∈ b := by
  by_contra hb
  have hlost : (b ++ assertEvent :: c).foldl bracketStep (some true) = none := by
    rw [List.foldl_append]
    rcases foldl_bracketStep_open hb with hst | hst <;> rw [hst] <;> exact foldl_bracketStep_none c
  have hfirst : bracketStep (bracket a) assertEvent = some true ∨ bracketStep (bracket a) assertEvent = none := by
    rcases bracket a with _ | _ | _
    · exact .inr rfl
    · exact .inl rfl
    · exact .inr rfl
  rw [bracket_append, List.foldl_cons] at h
  rcases hfirst with hst | hst
  · rw [hst, hlost] at h
    cases h
  · rw [hst, foldl_bracketStep_none] at h
    cases h

/-- The bracketing is kept if the events emitted lead from the bracketing at `p` to that at the next micro-state. -/
theorem Bracketed.next {s t : State} {p : MicroState} {tr : List Event} (h : Bracketed s) (hp : s.pc = p)
    (ht : t.trace = s.trace ++ tr)
    (htr : tr.foldl bracketStep (some (insideBracket p)) = some (insideBracket t.pc) := by rfl)
    (hreq : t.requests = s.requests := by rfl) : Bracketed t := by
  obtain ⟨hcmd, hb⟩ := h
  rw [hp] at hb
  exact ⟨fun c hc => hcmd c (hreq ▸ hc), by rw [ht, bracket_append, hb, htr]⟩

theorem accesses_probeWarning (rdeng : Byte) : accesses (probeWarning rdeng) = [] := by
  unfold probeWarning
  split_ifs <;> rfl

theorem not_insideBracket_of_isInitState {p : MicroState} (h : isInitState p = true) : insideBracket p = false := by
  revert h
  cases p <;> decide

theorem Bracketed.hostUpdate {s t : State} (h : Bracketed s) (hu : HostUpdate s t) : Bracketed t := by
  cases hu with
  | failed hp htr => exact h.next rfl rfl (by rw [foldl_bracketStep_of_no_access htr, not_insideBracket_of_isInitState hp]; rfl)
  | mapped hp htr => exact h.next hp rfl (by rw [foldl_bracketStep_of_no_access htr]; rfl)
  | hooked hp htr => exact h.next hp rfl (by rw [foldl_bracketStep_of_no_access htr]; rfl)
  | registered hp htr => exact h.next hp rfl (by rw [foldl_bracketStep_of_no_access htr]; rfl)
  | skipped hp htr => exact h.next hp rfl (by rw [foldl_bracketStep_of_no_access htr]; rfl)
  | entered hp => exact h.next hp (List.append_nil _).symm

/-- Every micro-step: `X_CSON` opens an assert, `X_CSOFF` ends it, and `INIT` de-asserts with none open. -/
theorem Bracketed.microUpdate {s t : State} (h : Bracketed s) (hm : MicroUpdate s t) : Bracketed t := by
  have hhost (hi : issue s = none) : Bracketed t := h.hostUpdate (hm.hostUpdate hi)
  unfold MicroUpdate at hm
  cases hp : s.pc <;> simp only [hp] at hm
  case iResolve | iHook | iRegister | sGuard => exact hhost (by simp only [issue, hp])
  case iProbe =>
    rw [afterIProbe_eq] at hm
    obtain ⟨-, rfl⟩ := hm
    refine h.next hp (tr := .acc .read .rdeng s.rdeng :: probeWarning s.rdeng) (List.append_assoc ..) ?_
    rw [List.foldl_cons, foldl_bracketStep_of_no_access (accesses_probeWarning _)]
    rfl
  case iCsIdle | sCs0 | xCsOff =>
    obtain ⟨-, d, rfl⟩ := hm
    exact h.next hp rfl
  case iCtrlRd | iCtrlWr | iReRd | iReWr | sReRd | sReWr =>
    obtain ⟨-, rfl⟩ := hm
    exact h.next hp rfl
  case iDrainPoll | xWPoll | xRPoll =>
    obtain ⟨-, b, rfl⟩ := hm
    split_ifs <;> exact h.next hp rfl
  case iDrainPop =>
    obtain ⟨-, b, rest, -, rfl⟩ := hm
    exact h.next hp rfl
  case xCsOn =>
    obtain ⟨-, d, rfl⟩ := hm
    split_ifs <;> exact h.next hp rfl
  case xWPush | xRPush =>
    obtain ⟨-, b, n, -, ⟨-, -, rfl⟩ | ⟨-, rfl⟩⟩ := hm
    · exact h.next hp rfl
    · exact h.next hp rfl
  case xWPop | xRPop =>
    obtain ⟨-, b, rest, -, rfl⟩ := hm
    split_ifs <;> exact h.next hp rfl

theorem Bracketed.seqStep {s t : State} (h : Bracketed s) (hs : seqStep s = .next t) : Bracketed t := by
  obtain ⟨hcmd, hb⟩ := id h
  rcases hcmd.seqStep_cases hs with rfl | ⟨hp, i, rest, hi, hrest, he⟩ | hm
  · exact h
  · have hb : bracket s.trace = some false := by rw [hb, hp]; rfl
    cases i with
    | init => obtain ⟨-, -, rfl⟩ := execInit_inv he; exact ⟨hrest, hb⟩
    | xfer => obtain ⟨-, -, -, rfl⟩ := execXfer_inv he; exact ⟨hrest, hb⟩
    | shutdown => obtain ⟨-, -, rfl⟩ := execShutdown_inv he; exact ⟨hrest, hb⟩
    | _ => cases hi
  · exact h.microUpdate hm

theorem Bracketed.step {s t : State} (h : Bracketed s) (hs : step s = .next t) : Bracketed t := by
  rcases step_cases hs with ⟨he, -, hs⟩ | ⟨-, -, hs⟩ | ⟨-, -, hs⟩
  · obtain ⟨_, _, _, _, _, _, -, -, rfl⟩ := shiftStep_fields (shiftPoised_of_enabled he) hs
    exact h.next rfl rfl
  · obtain ⟨l, n, hn⟩ := nextAgent_eq s
    rw [hn] at hs
    exact Bracketed.seqStep (s := { s with sched := l, draws := n }) h hs
  · exact h.seqStep hs

/-- Settles O55: every step keeps the bracketing, and a trace with it has a de-assert between two asserts. -/
theorem assertsHaveDeassertBetween : Obligations.AssertsHaveDeassertBetween := by
  refine ⟨fun s t => Bracketed.step, fun n s t a b c hp hcmd htr hrun ht => ?_⟩
  have hs : Bracketed s := ⟨hcmd, by rw [htr, hp]; rfl⟩
  obtain ⟨-, hb⟩ := run_keeps (fun _ _ => Bracketed.step) hs hrun
  rw [ht] at hb
  exact deassert_mem_of_bracket hb

end Sys2Proof.Machine
end

section
/-! PROOFS. The micro-steps of `XFER` (43_transaction_engine.md), each as one update of the state, behind the core and behind
the echo double alike where the two agree, and the frame of a transaction's step (R151, R210). -/

namespace Sys2Proof.Machine

/-! ### The micro-steps that go through (R141 to R149) -/

/-- A push micro-state of `XFER` and the poll that follows it. -/
inductive PollOfPush : MicroState → MicroState → Prop
  | write : PollOfPush .xWPush .xWPoll
  | read : PollOfPush .xRPush .xRPoll

section
variable {s : State}

/-- The byte pushed is `wb[I]` while there is one, and then a draw (R142, R145, R146). -/
theorem outboundByte_lt (h : s.regI < s.regW) : outboundByte s = (memRead s.mem (s.held.wbBase + s.regI), s) :=
  if_pos h

theorem outboundByte_ge (h : s.regW ≤ s.regI) :
    outboundByte s = (Config.freeByte s.draws, { s with draws := s.draws + 1 }) :=
  if_neg (Nat.not_lt.mpr h)

theorem PollOfPush.follow_eq {p q : MicroState} (h : PollOfPush p q) (u : State) : follow p u = u.goto q := by
  cases h <;> rfl

/-- A push micro-state's step, where its access goes through. -/
theorem PollOfPush.seqStep_push {p q : MicroState} {u : State} (h : PollOfPush p q) (hp : s.pc = p)
    (hu : execWrFifo (outboundByte s).1 (outboundByte s).2 = .next u) : seqStep s = .next (u.goto q) := by
  have hissue : issue s = some (.wrFifo (outboundByte s).1, (outboundByte s).2) := by
    cases h <;> simp only [issue, hp]
  have hne : s.pc ≠ .idle := fun hidle => by simp [issue, hidle] at hissue
  rw [seqStep_issue hne hissue hu, hp, h.follow_eq]

/-- The push behind the enabled core, into `TXF`. -/
theorem PollOfPush.seqStep_core {p q : MicroState} (h : PollOfPush p q) (hp : s.pc = p) (hh : s.handle.isSome = true)
    (hc : s.iface = .core) (ho : softwareOwned s.ctrl s.rdeng = true) (hd : s.txf.length ≠ Config.txDepth) :
    seqStep s = .next { (outboundByte s).2 with
      pc := q, txf := s.txf ++ [(outboundByte s).1]
      trace := s.trace ++ [.acc .write .fifo (outboundByte s).1] } := by
  rw [h.seqStep_push hp (execWrFifo_ok (by simpa) (by simpa) (by simpa) (by simpa) _)]
  simp [State.goto]

/-- The push behind the echo double, into `RXF` (R93). -/
theorem PollOfPush.seqStep_double {p q : MicroState} (h : PollOfPush p q) (hp : s.pc = p)
    (hh : s.handle.isSome = true) (hd : s.iface = .echoDouble) :
    seqStep s = .next { (outboundByte s).2 with
      pc := q, rxf := s.rxf ++ [(outboundByte s).1]
      trace := s.trace ++ [.acc .write .fifo (outboundByte s).1] } := by
  rw [h.seqStep_push hp (execWrFifo_double (by simpa) (by simpa) _)]
  simp [State.goto]

theorem seqStep_xCsOn (hpc : s.pc = .xCsOn) (hh : s.handle.isSome = true) :
    seqStep s = .next { s with
      pc := if 0 < s.regW then .xWPush else if 0 < s.regR then .xRPush else .xCsOff
      cs := 0x01#8, dev := toldLevel s .asserted, regI := 0, trace := s.trace ++ [.acc .write .cs 0x01#8] } := by
  have hexec := execWrCs_ok hh isCsPattern_csAssert
  rw [lineOf_csAssert] at hexec
  exact seqStep_access csOn hpc (by simp only [issue, hpc]) hexec

/-- The sample of a poll, and the pop once a byte is there. -/
theorem PopOfPoll.seqStep_sample {q : MicroState} (h : PopOfPoll s.pc q) (hh : s.handle.isSome = true) :
    ∃ b, seqStep s = .next { s with
      pc := if s.rxf = [] then s.pc else q
      regS := b, draws := s.draws + 1, trace := s.trace ++ [.acc .read .stat b] } := by
  obtain ⟨t, ht⟩ := h.seqStep_next hh
  obtain ⟨b, rfl⟩ := h.polls ht
  exact ⟨b, ht⟩

theorem seqStep_xWPop {b : Byte} {rest : List Byte} (hpc : s.pc = .xWPop) (hh : s.handle.isSome = true)
    (ho : s.iface = .core → softwareOwned s.ctrl s.rdeng = true) (hr : s.rxf = b :: rest) :
    seqStep s = .next { s with
      pc := if s.regI + 1 < s.regW then .xWPush else if 0 < s.regR then .xRPush else .xCsOff
      regI := if s.regI + 1 < s.regW then s.regI + 1 else 0
      rxf := rest, regT := b, trace := s.trace ++ [.acc .read .fifo b] } := by
  rw [seqStep_access .rdFifo hpc (by simp only [issue, hpc]) (execRdFifo_ok hh ho hr), follow, afterXWPop_eq]

theorem seqStep_xRPop {b : Byte} {rest : List Byte} (hpc : s.pc = .xRPop) (hh : s.handle.isSome = true)
    (ho : s.iface = .core → softwareOwned s.ctrl s.rdeng = true) (hr : s.rxf = b :: rest) :
    seqStep s = .next { s with
      pc := if s.regI + 1 < s.regR then .xRPush else .xCsOff
      regI := s.regI + 1, rxf := rest, regT := b, mem := memWrite s.mem (s.held.rbBase + s.regI) b
      trace := s.trace ++ [.acc .read .fifo b] } :=
  seqStep_access .rdFifo hpc (by simp only [issue, hpc]) (execRdFifo_ok hh ho hr)

theorem seqStep_xCsOff (hpc : s.pc = .xCsOff) (hh : s.handle.isSome = true) :
    seqStep s = .next { s with
      pc := .idle, cs := 0x11#8, dev := toldLevel s .deasserted, held := {}
      trace := s.trace ++ [.acc .write .cs 0x11#8] ++ [.done .xfer none] } := by
  have hexec := execWrCs_ok hh isCsPattern_csDeassert
  rw [lineOf_csDeassert] at hexec
  exact seqStep_access csOff hpc (by simp only [issue, hpc]) hexec

theorem toldLevel_core (hc : s.iface = .core) (level : Cs0) : toldLevel s level = (deviceSees s (.cs level)).dev := by
  rw [toldLevel, hc]

end

/-! ### The statements on the micro-steps -/

/-- Settles O35, micro-state by micro-state. -/
theorem writePhaseMicroSteps : Obligations.WritePhaseMicroSteps := by
  intro s hh hc ho
  refine ⟨fun hp => ?assert, fun hp hi hd => ?push, fun hp => ?poll, fun b rest hp => ?pop⟩
  case assert => exact ⟨_, seqStep_xCsOn hp hh, lineOf_csAssert, by rw [toldLevel_core hc]⟩
  case push =>
    have hstep := PollOfPush.write.seqStep_core hp hh hc ho hd
    rwa [outboundByte_lt hi] at hstep
  case poll => simpa only [hp] using PopOfPoll.seqStep_sample (hp ▸ .write) hh
  case pop => exact seqStep_xWPop hp hh fun _ => ho

/-- Settles O36, micro-state by micro-state; what the pop leaves in memory is `memRead_write`. -/
theorem readPhaseMicroSteps : Obligations.ReadPhaseMicroSteps := by
  intro s hh hc ho
  refine ⟨fun hp hi hd => ?push, fun hp hi hd => ?pushDraw, fun hp => ?poll, fun b rest hp hr => ?pop,
    fun hp => ?deassert⟩
  case push =>
    have hstep := PollOfPush.read.seqStep_core hp hh hc ho hd
    rwa [outboundByte_lt hi] at hstep
  case pushDraw =>
    have hstep := PollOfPush.read.seqStep_core hp hh hc ho hd
    rwa [outboundByte_ge hi] at hstep
  case poll => simpa only [hp] using PopOfPoll.seqStep_sample (hp ▸ .read) hh
  case pop => exact ⟨_, seqStep_xRPop hp hh (fun _ => ho) hr, fun a => memRead_write _ _ _ _⟩
  case deassert => exact ⟨_, seqStep_xCsOff hp hh, lineOf_csDeassert, by rw [toldLevel_core hc]⟩

/-! ### The frame of a transaction's step (R148, R151, R210) -/

/-- What a step of a transaction can change; of the caller's memory, `rb[I]` at `X_RPOP` alone. -/
inductive XferUpdate (s : State) : State → Prop
  | intro {pc : MicroState} {cs regT regS : Byte} {rxf txf : List Byte} {dev : Device} {regI draws : Nat}
      {held : CommandArgs} {mem : Memory} {sched : List Agent} {trace : List Event}
      (hmem : ∀ a, (s.pc = .xRPop → a ≠ s.held.rbBase + s.regI) → memRead mem a = memRead s.mem a) :
      XferUpdate s { s with
        pc := pc, cs := cs, regT := regT, regS := regS, rxf := rxf, txf := txf, dev := dev, regI := regI
        draws := draws, held := held, mem := mem, sched := sched, trace := trace }

theorem MicroUpdate.xferUpdate {s t : State} (h : MicroUpdate s t) (hx : isXferState s.pc = true) : XferUpdate s t := by
  unfold MicroUpdate at h
  cases hp : s.pc <;> simp only [hp] at h hx
  case xCsOn | xCsOff =>
    obtain ⟨-, d, rfl⟩ := h
    exact .intro fun _ _ => rfl
  case xWPush | xRPush =>
    obtain ⟨-, b, n, -, ⟨-, -, rfl⟩ | ⟨-, rfl⟩⟩ := h
    · exact .intro fun _ _ => rfl
    · exact .intro fun _ _ => rfl
  case xWPoll | xRPoll =>
    obtain ⟨-, b, rfl⟩ := h
    exact .intro fun _ _ => rfl
  case xWPop =>
    obtain ⟨-, b, rest, -, rfl⟩ := h
    exact .intro fun _ _ => rfl
  case xRPop =>
    obtain ⟨-, b, rest, -, rfl⟩ := h
    exact .intro fun a ha => memRead_write_other _ _ _ _ (ha hp)
  all_goals cases hx

/-- Every step of a transaction, of the shift engine or of the sequencer, is an `XferUpdate`. -/
theorem step_xferUpdate {s t : State} (hx : isXferState s.pc = true) (h : step s = .next t) : XferUpdate s t := by
  have hne : s.pc ≠ .idle := fun hp => by simp [hp, isXferState] at hx
  rcases step_cases h with ⟨he, -, h⟩ | ⟨-, -, h⟩ | ⟨-, -, h⟩
  · obtain ⟨_, _, _, _, _, _, -, -, rfl⟩ := shiftStep_fields (shiftPoised_of_enabled he) h
    exact .intro fun _ _ => rfl
  · obtain ⟨l, n, hn⟩ := nextAgent_eq s
    rw [hn] at h
    obtain ⟨hmem⟩ := (microStep_inv (s := { s with sched := l, draws := n }) hne h).xferUpdate hx
    exact .intro hmem
  · exact (microStep_inv hne h).xferUpdate hx

/-- Settles O60: `XferUpdate` names every field a transaction's step can change. -/
theorem transactionLeavesControlAlone : Obligations.TransactionLeavesControlAlone := by
  intro s t hx h
  obtain ⟨hmem⟩ := step_xferUpdate hx h
  exact ⟨rfl, rfl, rfl, rfl, rfl, rfl, rfl, hmem⟩

end Sys2Proof.Machine
end

section
/-! PROOFS. Whole runs of `XFER` (R151, R152, R153). A round-trip is a push, a poll loop and a pop (`reaches_pop`); the write
phase and the read phase are inductions over the round-trips still to be made, behind the core and behind the echo double
alike (`Trips`). `reaches_xferEnd` says what the whole transaction has done, and the two statements read off what they
need. -/

namespace Sys2Proof.Machine

theorem Reaches.cons {s t u : State} (h : step s = .next t) (hr : Reaches t u) : Reaches s u := by
  obtain ⟨n, hn⟩ := hr
  exact ⟨n + 1, (run_succ h n).trans hn⟩

/-- A run goes on with the sequencer's turn, where the shift engine has nothing to send and no byte is awaited. -/
theorem Reaches.seqStep {s t u : State} (hr : Reaches s t) (h : seqStep t = .next u) (hu : shiftPoised t = false)
    (hn : isPollState t.pc = false) : Reaches s u :=
  hr.trans (.cons ((step_unpoised hu (stuck_of_not_poll hn)).trans h) (.refl _))

/-! ### What a transaction's steps leave open -/

/-- The fields of which a transaction's statements say nothing. -/
structure Scratch where
  regT : Byte
  regS : Byte
  dev : Device
  draws : Nat
  sched : List Agent

/-- `s` with these fields and the events `tr` emitted. -/
def State.after (s : State) (x : Scratch) (tr : List Event) : State :=
  { s with
    regT := x.regT, regS := x.regS, dev := x.dev, draws := x.draws, sched := x.sched, trace := s.trace ++ tr }

/-- These fields as they are. -/
def State.scratch (s : State) : Scratch := ⟨s.regT, s.regS, s.dev, s.draws, s.sched⟩

theorem State.after_scratch (s : State) : s.after s.scratch [] = s := by
  simp [State.after, State.scratch]

theorem State.after_after (s : State) (x y : Scratch) (tr ur : List Event) :
    (s.after x tr).after y ur = s.after y (tr ++ ur) := by
  simp [State.after]

/-- From `s` the machine can make `n` round-trips: nothing is received, and behind the core it is enabled with nothing to
send and turns enough for the shift engine (log 5). -/
structure Serving (n : Nat) (s : State) : Prop where
  mapped : s.handle.isSome = true
  rxf : s.rxf = []
  owned : s.iface = .core → softwareOwned s.ctrl s.rdeng = true
  txf : s.iface = .core → s.txf = []
  turns : s.iface = .core → n ≤ s.sched.count .shift

theorem Serving.unpoised {n : Nat} {s : State} (h : Serving n s) : shiftPoised s = false := by
  cases hi : s.iface with
  | core => exact shiftPoised_of_txf_nil (h.txf hi)
  | echoDouble => exact shiftPoised_of_double hi

/-- The next step of a push is the sequencer's. -/
theorem Serving.step {n : Nat} {s t : State} {p q : MicroState} (hs : Serving n s) (hpush : PollOfPush p q) (hp : s.pc = p)
    (h : seqStep s = .next t) : step s = .next t := by
  have hnot : isPollState s.pc = false := by
    rw [hp]
    cases hpush <;> rfl
  exact (step_unpoised hs.unpoised (stuck_of_not_poll hnot)).trans h

/-! ### The traces of round-trips (R152, R153) -/

/-- `tr` is the trace of the round-trips `ps`, each the byte sent and its answer: their accesses but for the polls; behind
the core an exchange each, with the line asserted; behind the echo double the answer is the byte sent. -/
structure Trips (i : RegIface) (ps : List (Byte × Byte)) (tr : List Event) : Prop where
  work : workAccesses tr = ps.flatMap roundTrip
  bus : i = .core → exchanges tr = ps.map fun x => (.asserted, x.1, x.2)
  echo : i = .echoDouble → ∀ x ∈ ps, x.2 = x.1

theorem Trips.nil (i : RegIface) : Trips i [] [] := ⟨rfl, fun _ => rfl, fun _ => by simp⟩

theorem Trips.append {i : RegIface} {ps qs : List (Byte × Byte)} {tr ur : List Event} (h₁ : Trips i ps tr)
    (h₂ : Trips i qs ur) : Trips i (ps ++ qs) (tr ++ ur) where
  work := by rw [workAccesses_append, h₁.work, h₂.work, List.flatMap_append]
  bus hi := by rw [exchanges_append, h₁.bus hi, h₂.bus hi, List.map_append]
  echo hi x hx := (List.mem_append.mp hx).elim (h₁.echo hi x) (h₂.echo hi x)

/-! ### One round-trip -/

/-- The shift engine's turn in a round-trip (R100, R104). -/
theorem shiftStep_asserted {s : State} {b : Byte} (hr : s.rxf = []) (htx : s.txf = [b]) (hline : s.cs0 = .asserted) :
    ∃ miso d n, shiftStep s = .next { s with
      rxf := [miso], txf := [], dev := d, draws := n, trace := s.trace ++ [.xfer .asserted b miso] } := by
  obtain ⟨d, n, hex⟩ := exchange_eq s .asserted b
  refine ⟨(exchange s .asserted b).1, d, n, ?_⟩
  rw [shiftStep_ok (by rw [hr]; exact Config.rxDepth_pos) htx, exchanged, hline, hex, hr]
  rfl

/-- The next turn being the shift engine's, the byte is exchanged and the turn used up. -/
theorem step_served {s : State} {b : Byte} {sched : List Agent} (hr : s.rxf = []) (htx : s.txf = [b])
    (hline : s.cs0 = .asserted) (he : shiftEnabled s = true) (hs : s.sched = .shift :: sched) :
    ∃ miso d n, step s = .next { s with
      rxf := [miso], txf := [], dev := d, draws := n, sched := sched
      trace := s.trace ++ [.xfer .asserted b miso] } := by
  have hturn : nextAgent s = (.shift, { s with sched := sched }) := by simp only [nextAgent, hs]
  rw [step_enabled he, hturn]
  exact shiftStep_asserted (s := { s with sched := sched }) hr htx hline

/-- R102: with a turn for the shift engine ahead a poll loop goes on, sample by sample, to the exchange. -/
theorem reaches_received {s : State} {b : Byte} (hpoll : s.pc = .xWPoll ∨ s.pc = .xRPoll) (hh : s.handle.isSome = true)
    (hr : s.rxf = []) (htx : s.txf = [b]) (he : shiftEnabled s = true) (hline : s.cs0 = .asserted)
    (hturn : 0 < s.sched.count .shift) :
    ∃ miso x tr, Reaches s { s.after x tr with rxf := [miso], txf := [] } ∧
      s.sched.count .shift = x.sched.count .shift + 1 ∧ workAccesses tr = [] ∧
      exchanges tr = [(.asserted, b, miso)] := by
  induction hq : s.sched generalizing s with
  | nil => simp [hq] at hturn
  | cons a rest ih =>
    cases a with
    | shift =>
      obtain ⟨miso, d, n, hstep⟩ := step_served hr htx hline he hq
      exact ⟨miso, ⟨s.regT, s.regS, d, n, rest⟩, [.xfer .asserted b miso], .cons hstep (.refl _), by simp, rfl, rfl⟩
    | seq =>
      obtain ⟨c, hstep⟩ := step_unserved hpoll hh hr hq he
      obtain ⟨miso, x, tr, hrun, hcount, hwork, hbus⟩ := ih (s := { s with
        regS := c, draws := s.draws + 1, sched := rest, trace := s.trace ++ [.acc .read .stat c] })
        hpoll hh hr htx he hline (by simpa [hq] using hturn) rfl
      refine ⟨miso, x, .acc .read .stat c :: tr, ?_, by simpa using hcount, hwork, hbus⟩
      simpa [State.after] using Reaches.cons hstep hrun

/-- A poll that finds a byte received goes on to the pop. -/
theorem reaches_pop_of_received {s : State} {q : MicroState} (hq : PopOfPoll s.pc q) (hh : s.handle.isSome = true)
    (hr : s.rxf ≠ []) (hu : shiftPoised s = false) :
    ∃ c, Reaches s { s with
      pc := q, regS := c, draws := s.draws + 1, trace := s.trace ++ [.acc .read .stat c] } := by
  obtain ⟨c, hc⟩ := hq.seqStep_sample hh
  rw [if_neg hr] at hc
  exact ⟨c, .cons ((step_unpoised hu (stuck_of_rxf hr)).trans hc) (.refl _)⟩

/-- A poll loop behind the core, from a byte to send to the pop of its answer. -/
theorem reaches_pop_of_waiting {s : State} {b : Byte} {q : MicroState} (hq : PopOfPoll s.pc q)
    (hh : s.handle.isSome = true) (hr : s.rxf = []) (htx : s.txf = [b]) (hpoised : shiftPoised s = true)
    (hline : s.cs0 = .asserted) (hturn : 0 < s.sched.count .shift) :
    ∃ miso x tr, Reaches s { s.after x tr with pc := q, rxf := [miso], txf := [] } ∧
      s.sched.count .shift = x.sched.count .shift + 1 ∧ workAccesses tr = [] ∧
      exchanges tr = [(.asserted, b, miso)] := by
  obtain ⟨miso, x, tr, hreceived, hcount, hwork, hbus⟩ :=
    reaches_received (isPollState_iff.mp hq.isPollState) hh hr htx
      ((shiftEnabled_of_rxf_nil hr).trans hpoised) hline hturn
  obtain ⟨c, hpopped⟩ := reaches_pop_of_received (s := { s.after x tr with rxf := [miso], txf := [] }) hq hh
    (List.cons_ne_nil miso []) (shiftPoised_of_txf_nil rfl)
  refine ⟨miso, { x with regS := c, draws := x.draws + 1 }, tr ++ [.acc .read .stat c], ?_, hcount, ?_, ?_⟩
  · simpa [State.after] using hreceived.trans hpopped
  · rw [workAccesses_append, hwork]
    rfl
  · rw [exchanges_append, hbus]
    rfl

/-- A round-trip up to its pop, behind the core: the byte pushed is exchanged and its answer awaited (R106, R142 to R147). -/
theorem reaches_pop_core {s : State} {n : Nat} {p q r : MicroState} (hpush : PollOfPush p q) (hpop : PopOfPoll q r)
    (hp : s.pc = p) (hc : s.iface = .core) (hline : s.cs0 = .asserted) (hs : Serving (n + 1) s) :
    ∃ miso x tr, Reaches s { s.after x tr with pc := r, rxf := [miso] } ∧ n ≤ x.sched.count .shift ∧
      workAccesses tr = [.acc .write .fifo (outboundByte s).1] ∧
      exchanges tr = [(.asserted, (outboundByte s).1, miso)] := by
  have ho := hs.owned hc
  have htx := hs.txf hc
  have hturns := hs.turns hc
  obtain ⟨k, hk⟩ := outboundByte_eq s
  have hstep := hpush.seqStep_core hp hs.mapped hc ho (by rw [htx]; exact Config.txDepth_pos.ne)
  generalize (outboundByte s).1 = b at hstep ⊢
  rw [hk, htx, List.nil_append] at hstep
  obtain ⟨miso, x, tr, hpopped, hcount, hwork, hbus⟩ := reaches_pop_of_waiting (s := { s with
    draws := k, pc := q, txf := [b], trace := s.trace ++ [.acc .write .fifo b] }) hpop hs.mapped hs.rxf rfl
    (by simp [shiftPoised, hc, ho]) hline (Nat.lt_of_lt_of_le n.succ_pos hturns)
  refine ⟨miso, x, .acc .write .fifo b :: tr, ?run, ?turns, congrArg (Event.acc .write .fifo b :: ·) hwork, hbus⟩
  case run => simpa [State.after, htx] using Reaches.cons (hs.step hpush hp hstep) hpopped
  case turns => exact Nat.le_of_succ_le_succ (hturns.trans hcount.le)

/-- A round-trip up to its pop, behind the echo double: the byte pushed is its own answer (R93). -/
theorem reaches_pop_double {s : State} {n : Nat} {p q r : MicroState} (hpush : PollOfPush p q) (hpop : PopOfPoll q r)
    (hp : s.pc = p) (hd : s.iface = .echoDouble) (hs : Serving n s) :
    ∃ x tr, Reaches s { s.after x tr with pc := r, rxf := [(outboundByte s).1] } ∧
      workAccesses tr = [.acc .write .fifo (outboundByte s).1] := by
  obtain ⟨k, hk⟩ := outboundByte_eq s
  have hstep := hpush.seqStep_double hp hs.mapped hd
  generalize (outboundByte s).1 = b at hstep ⊢
  rw [hk, hs.rxf, List.nil_append] at hstep
  obtain ⟨c, hpopped⟩ := reaches_pop_of_received (s := { s with
    draws := k, pc := q, rxf := [b], trace := s.trace ++ [.acc .write .fifo b] }) hpop hs.mapped
    (List.cons_ne_nil b []) (shiftPoised_of_double hd)
  refine ⟨⟨s.regT, c, s.dev, k + 1, s.sched⟩, [.acc .write .fifo b, .acc .read .stat c], ?_, rfl⟩
  simpa [State.after] using Reaches.cons (hs.step hpush hp hstep) hpopped

/-- A round-trip up to its pop, whatever stands behind the Register Interface. -/
theorem reaches_pop {s : State} {n : Nat} {p q r : MicroState} (hpush : PollOfPush p q) (hpop : PopOfPoll q r)
    (hp : s.pc = p) (hline : s.cs0 = .asserted) (hs : Serving (n + 1) s) :
    ∃ miso x tr, Reaches s { s.after x tr with pc := r, rxf := [miso] } ∧
      (s.iface = .core → n ≤ x.sched.count .shift) ∧
      Trips s.iface [((outboundByte s).1, miso)] (tr ++ [.acc .read .fifo miso]) := by
  cases hi : s.iface with
  | core =>
    obtain ⟨miso, x, tr, hrun, hturns, hwork, hbus⟩ := reaches_pop_core hpush hpop hp hi hline hs
    refine ⟨miso, x, tr, hrun, fun _ => hturns, ?_, fun _ => ?_, nofun⟩
    · rw [workAccesses_append, hwork]
      rfl
    · rw [exchanges_append, hbus]
      rfl
  | echoDouble =>
    obtain ⟨x, tr, hrun, hwork⟩ := reaches_pop_double hpush hpop hp hi hs
    refine ⟨_, x, tr, hrun, nofun, ?_, nofun, fun _ => by simp⟩
    rw [workAccesses_append, hwork]
    rfl

/-! ### The two phases -/

/-- Each element of `l` is in `P` with its index, counted from `i`. -/
def IndexedFrom {α : Type} (i : Nat) (P : Nat → α → Prop) (l : List α) : Prop :=
  ∀ j x, l[j]? = some x → P (i + j) x

theorem IndexedFrom.nil {α : Type} (i : Nat) (P : Nat → α → Prop) : IndexedFrom i P [] := by simp [IndexedFrom]

theorem IndexedFrom.cons {α : Type} {i : Nat} {P : Nat → α → Prop} {x : α} {l : List α} (hx : P i x)
    (hl : IndexedFrom (i + 1) P l) : IndexedFrom i P (x :: l) := by
  rintro (_ | j) y hy
  · simp at hy
    rwa [← hy]
  · rw [Nat.add_comm j 1, ← Nat.add_assoc]
    exact hl j y (by simpa using hy)

theorem IndexedFrom.imp {α : Type} {i : Nat} {P Q : Nat → α → Prop} {l : List α} (h : IndexedFrom i P l)
    (hpq : ∀ j x, P j x → Q j x) : IndexedFrom i Q l := fun j x hx => hpq _ x (h j x hx)

theorem IndexedFrom.get {α : Type} {P : Nat → α → Prop} {l : List α} (h : IndexedFrom 0 P l) {i : Nat}
    (hi : i < l.length) : ∃ x, l[i]? = some x ∧ P i x :=
  ⟨l[i], List.getElem?_eq_getElem hi, by simpa using h i _ (List.getElem?_eq_getElem hi)⟩

/-- A round-trip of the write phase (R142 to R144). -/
theorem reaches_writeTrip {s : State} {n : Nat} (hp : s.pc = .xWPush) (hline : s.cs0 = .asserted)
    (hs : Serving (n + 1) s) :
    ∃ miso x tr, Reaches s { s.after x tr with
        pc := if s.regI + 1 < s.regW then .xWPush else if 0 < s.regR then .xRPush else .xCsOff
        regI := if s.regI + 1 < s.regW then s.regI + 1 else 0, rxf := [] } ∧
      (s.iface = .core → n ≤ x.sched.count .shift) ∧ Trips s.iface [((outboundByte s).1, miso)] tr := by
  obtain ⟨miso, x, tr, hrun, hturns, htrips⟩ := reaches_pop .write .write hp hline hs
  have hstep := seqStep_xWPop (s := { s.after x tr with pc := .xWPop, rxf := [miso] }) rfl hs.mapped hs.owned rfl
  have hpop := hrun.seqStep hstep hs.unpoised rfl
  exact ⟨miso, { x with regT := miso }, _, by rw [← State.after_after s x]; exact hpop, hturns, htrips⟩

/-- A round-trip of the read phase, with the answer stored (R145 to R148). -/
theorem reaches_readTrip {s : State} {n : Nat} (hp : s.pc = .xRPush) (hline : s.cs0 = .asserted)
    (hs : Serving (n + 1) s) :
    ∃ miso x tr, Reaches s { s.after x tr with
        pc := if s.regI + 1 < s.regR then .xRPush else .xCsOff
        regI := s.regI + 1, rxf := [], mem := memWrite s.mem (s.held.rbBase + s.regI) miso } ∧
      (s.iface = .core → n ≤ x.sched.count .shift) ∧ Trips s.iface [((outboundByte s).1, miso)] tr := by
  obtain ⟨miso, x, tr, hrun, hturns, htrips⟩ := reaches_pop .read .read hp hline hs
  have hstep := seqStep_xRPop (s := { s.after x tr with pc := .xRPop, rxf := [miso] }) rfl hs.mapped hs.owned rfl
  have hpop := hrun.seqStep hstep hs.unpoised rfl
  exact ⟨miso, { x with regT := miso }, _, by rw [← State.after_after s x]; exact hpop, hturns, htrips⟩

/-- The write phase, from index `I` on with `k + 1` bytes to go. -/
theorem reaches_writePhase {s : State} {k n : Nat} (hp : s.pc = .xWPush) (hk : s.regI + (k + 1) = s.regW)
    (hline : s.cs0 = .asserted) (hs : Serving (n + (k + 1)) s) :
    ∃ us x tr, Reaches s { s.after x tr with
        pc := if 0 < s.regR then .xRPush else .xCsOff, regI := 0, rxf := [] } ∧
      (s.iface = .core → n ≤ x.sched.count .shift) ∧ us.length = k + 1 ∧ Trips s.iface us tr ∧
      IndexedFrom s.regI (fun j y => y.1 = memRead s.mem (s.held.wbBase + j)) us := by
  induction k generalizing s with
  | zero =>
    have hsent := congrArg Prod.fst (outboundByte_lt (s := s) (by omega))
    have hlast : ¬ s.regI + 1 < s.regW := by omega
    obtain ⟨miso, x, tr, hrun, hturns, htrips⟩ := reaches_writeTrip hp hline hs
    rw [if_neg hlast, if_neg hlast] at hrun
    exact ⟨_, x, tr, hrun, hturns, rfl, htrips, .cons hsent (.nil _ _)⟩
  | succ k ih =>
    have hsent := congrArg Prod.fst (outboundByte_lt (s := s) (by omega))
    have hmore : s.regI + 1 < s.regW := by omega
    have hnext : s.regI + 1 + (k + 1) = s.regW := by omega
    obtain ⟨miso, x, tr, hrun, hturns, htrips⟩ := reaches_writeTrip hp hline hs
    rw [if_pos hmore, if_pos hmore] at hrun
    obtain ⟨us, y, ur, hrest, hleft, hlen, hrestTrips, hindexed⟩ := ih (s := { s.after x tr with
      pc := .xWPush, regI := s.regI + 1, rxf := [] }) rfl hnext hline
      ⟨hs.mapped, rfl, hs.owned, hs.txf, hturns⟩
    refine ⟨_ :: us, y, tr ++ ur, ?_, hleft, congrArg Nat.succ hlen, htrips.append hrestTrips, .cons hsent hindexed⟩
    rw [← State.after_after s x]
    exact hrun.trans hrest

/-- The read phase, from index `I` on with `k` answers to go (R145 to R148). -/
theorem reaches_readPhase {s : State} {k : Nat} (hp : s.pc = if s.regI < s.regR then .xRPush else .xCsOff)
    (hk : s.regI + k = s.regR) (hd : buffersDisjoint s.regW s.regR s.held.wbBase s.held.rbBase = true)
    (hline : s.cs0 = .asserted) (hs : Serving k s) :
    ∃ vs x i mem tr, Reaches s { s.after x tr with pc := .xCsOff, regI := i, rxf := [], mem := mem } ∧
      vs.length = k ∧ Trips s.iface vs tr ∧
      IndexedFrom s.regI (fun j y => (j < s.regW → y.1 = memRead s.mem (s.held.wbBase + j)) ∧
        y.2 = memRead mem (s.held.rbBase + j)) vs ∧
      ∀ a, a < s.held.rbBase + s.regI ∨ s.held.rbBase + s.regR ≤ a → memRead mem a = memRead s.mem a := by
  induction k generalizing s with
  | zero =>
    rw [if_neg (by omega)] at hp
    have hsame : ({ s.after s.scratch [] with pc := .xCsOff, rxf := [] } : State) = s := by
      rw [State.after_scratch, ← hp, ← hs.rxf]
    have hdone : Reaches s { s.after s.scratch [] with pc := .xCsOff, rxf := [] } := by
      rw [hsame]
      exact .refl s
    exact ⟨[], _, s.regI, s.mem, [], hdone, rfl, .nil _, .nil _ _, fun _ _ => rfl⟩
  | succ k ih =>
    rw [if_pos (by omega)] at hp
    have hnext : s.regI + 1 + k = s.regR := by omega
    obtain ⟨miso, x, tr, hrun, hturns, htrips⟩ := reaches_readTrip hp hline hs
    obtain ⟨vs, y, i, mem, ur, hrest, hlen, hrestTrips, hindexed, hframe⟩ := ih (s := { s.after x tr with
      pc := if s.regI + 1 < s.regR then .xRPush else .xCsOff
      regI := s.regI + 1, rxf := [], mem := memWrite s.mem (s.held.rbBase + s.regI) miso }) rfl hnext hd hline
      ⟨hs.mapped, rfl, hs.owned, hs.txf, hturns⟩
    have houtbound (j : Nat) (hj : j < s.regW) : s.held.wbBase + j ≠ s.held.rbBase + s.regI := by
      simp [buffersDisjoint] at hd
      omega
    have hwritten (a : Nat) (ha : a ≠ s.held.rbBase + s.regI) :
        memRead (memWrite s.mem (s.held.rbBase + s.regI) miso) a = memRead s.mem a := memRead_write_other _ _ _ _ ha
    refine ⟨_ :: vs, y, i, mem, tr ++ ur, ?run, congrArg Nat.succ hlen, htrips.append hrestTrips,
      .cons ⟨fun hw => ?sent, ?stored⟩ (hindexed.imp fun j z ⟨hz, hz'⟩ => ⟨fun hj => ?sentLater, hz'⟩),
      fun a ha => ?frame⟩
    case run =>
      rw [← State.after_after s x]
      exact hrun.trans hrest
    case sent => exact congrArg Prod.fst (outboundByte_lt hw)
    case stored => exact ((hframe _ (.inl (Nat.lt_succ_self _))).trans (memRead_write_same _ _ _)).symm
    case sentLater => exact (hz hj).trans (hwritten _ (houtbound j hj))
    case frame => exact (hframe a (ha.imp_left Nat.lt_succ_of_lt)).trans (hwritten a (by omega))

/-! ### The whole transaction (R151 to R153) -/

/-- What the transaction of `s` has done once its round-trips `us` of the write phase and `vs` of the read phase are made
and the caller's memory is `mem`. -/
structure Transferred (s : State) (mem : Memory) (us vs : List (Byte × Byte)) (tr : List Event) : Prop where
  trips : Trips s.iface (us ++ vs) tr
  writes : us.length = s.regW
  reads : vs.length = s.regR
  outbound : IndexedFrom 0 (fun j y => y.1 = memRead s.mem (s.held.wbBase + j)) us
  inbound : IndexedFrom 0 (fun j y => (j < s.regW → y.1 = memRead s.mem (s.held.wbBase + j)) ∧
    y.2 = memRead mem (s.held.rbBase + j)) vs
  frame : ∀ a, a < s.held.rbBase ∨ s.held.rbBase + s.regR ≤ a → memRead mem a = memRead s.mem a

/-- The round-trip of a write index. -/
theorem Transferred.write {s : State} {mem : Memory} {us vs : List (Byte × Byte)} {tr : List Event}
    (h : Transferred s mem us vs tr) {i : Nat} (hi : i < s.regW) :
    ∃ y, (us ++ vs)[i]? = some y ∧ y.1 = memRead s.mem (s.held.wbBase + i) := by
  rw [← h.writes] at hi
  rw [List.getElem?_append_left hi]
  exact h.outbound.get hi

/-- The round-trip of a read index. -/
theorem Transferred.read {s : State} {mem : Memory} {us vs : List (Byte × Byte)} {tr : List Event}
    (h : Transferred s mem us vs tr) {i : Nat} (hi : i < s.regR) :
    ∃ y, (us ++ vs)[s.regW + i]? = some y ∧ (i < s.regW → y.1 = memRead s.mem (s.held.wbBase + i)) ∧
      y.2 = memRead mem (s.held.rbBase + i) := by
  rw [← h.reads] at hi
  rw [← h.writes, List.getElem?_append_right (Nat.le_add_right _ _), Nat.add_sub_cancel_left, h.writes]
  exact h.inbound.get hi

/-- From the assert to the first micro-state of the read phase, or the end. -/
theorem reaches_readEntry {s : State} {n : Nat} (hp : s.pc = .xCsOn) (hs : Serving (n + s.regW) s) :
    ∃ us x tr, Reaches s { s.after x ([assertEvent] ++ tr) with
        pc := if 0 < s.regR then .xRPush else .xCsOff, cs := 0x01#8, regI := 0, rxf := [] } ∧
      (s.iface = .core → n ≤ x.sched.count .shift) ∧ us.length = s.regW ∧ Trips s.iface us tr ∧
      IndexedFrom 0 (fun j y => y.1 = memRead s.mem (s.held.wbBase + j)) us := by
  have hassert := (Reaches.refl s).seqStep (seqStep_xCsOn hp hs.mapped) hs.unpoised (by rw [hp]; rfl)
  cases hw : s.regW with
  | zero =>
    rw [if_neg (by omega)] at hassert
    refine ⟨[], { s.scratch with dev := toldLevel s .asserted }, [], ?_, fun hc => ?_, rfl, .nil _, .nil _ _⟩
    · rw [← hs.rxf]
      exact hassert
    · exact (Nat.le_add_right _ _).trans (hs.turns hc)
  | succ k =>
    rw [if_pos (by omega)] at hassert
    obtain ⟨us, x, tr, hrun, hturns, hlen, htrips, hindexed⟩ := reaches_writePhase (k := k) (n := n) (s := { s with
      pc := .xWPush, cs := 0x01#8, dev := toldLevel s .asserted, regI := 0
      trace := s.trace ++ [.acc .write .cs 0x01#8] }) rfl (by simp [hw]) lineOf_csAssert
      ⟨hs.mapped, hs.rxf, hs.owned, hs.txf, fun hc => hw ▸ hs.turns hc⟩
    refine ⟨us, x, tr, ?_, hturns, hlen, htrips, hindexed⟩
    rw [← State.after_after s { s.scratch with dev := toldLevel s .asserted }]
    exact hassert.trans hrun

/-- The end of a transaction (R149). -/
theorem reaches_idle {s : State} (hp : s.pc = .xCsOff) (hh : s.handle.isSome = true) (hu : shiftPoised s = false) :
    ∃ d, Reaches s { s with
      pc := .idle, cs := 0x11#8, dev := d, held := {}
      trace := s.trace ++ [deassertEvent] ++ [.done .xfer none] } :=
  ⟨_, (Reaches.refl s).seqStep (seqStep_xCsOff hp hh) hu (by rw [hp]; rfl)⟩

/-- A transaction runs from its assert to its end, whatever stands behind the Register Interface. -/
theorem reaches_xferEnd {s : State} (hp : s.pc = .xCsOn)
    (hd : buffersDisjoint s.regW s.regR s.held.wbBase s.held.rbBase = true) (hs : Serving (s.regW + s.regR) s) :
    ∃ us vs x i mem tr, Reaches s { s.after x ([assertEvent] ++ tr ++ [deassertEvent] ++ [.done .xfer none]) with
        pc := .idle, cs := 0x11#8, held := {}, regI := i, rxf := [], mem := mem } ∧
      Transferred s mem us vs tr := by
  obtain ⟨us, x, tr, hwrite, hturns, hwrites, hus, houtbound⟩ := reaches_readEntry (n := s.regR) hp
    (Nat.add_comm s.regW s.regR ▸ hs)
  obtain ⟨vs, y, i, mem, ur, hread, hreads, hvs, hinbound, hframe⟩ := reaches_readPhase
    (s := { s.after x ([assertEvent] ++ tr) with
      pc := if 0 < s.regR then .xRPush else .xCsOff, cs := 0x01#8, regI := 0, rxf := [] }) rfl (Nat.zero_add _) hd
    lineOf_csAssert ⟨hs.mapped, rfl, hs.owned, hs.txf, hturns⟩
  obtain ⟨d, hend⟩ := reaches_idle (s := { s.after y (([assertEvent] ++ tr) ++ ur) with
    pc := .xCsOff, cs := 0x01#8, regI := i, rxf := [], mem := mem }) rfl hs.mapped hs.unpoised
  refine ⟨us, vs, { y with dev := d }, i, mem, tr ++ ur, ?_, hus.append hvs, hwrites, hreads, houtbound, hinbound,
    hframe⟩
  rw [← List.append_assoc [assertEvent], ← State.after_after s y, ← State.after_after s y]
  refine .trans ?_ hend
  rw [← State.after_after s x]
  exact hwrite.trans hread

/-- The state after the acceptance of an `XFER` (R140). -/
def xferStarted (s : State) (w r wb rb ctx : Nat) : State :=
  { s with
    pc := .xCsOn, regW := w, regR := r
    held := { w := w, r := r, wbBase := wb, rbBase := rb, ctx := ctx } }

/-- Settles O47: the run is `reaches_xferEnd`, the bytes are those of `Transferred`. -/
theorem xferMovesEveryByte : Obligations.XferMovesEveryByte := by
  intro s w r wb rb ctx hp hl hh hc ho htx hrx hwf hturns
  have hd := wf_xfer_iff.mp hwf
  obtain ⟨us, vs, x, _, mem, tr, ⟨n, hrun⟩, hmoved⟩ := reaches_xferEnd (s := xferStarted s w r wb rb ctx) rfl hd
    ⟨hh, hrx, fun _ => ho, fun _ => htx, fun _ => hturns⟩
  refine ⟨_, n, _, [assertEvent] ++ tr ++ [deassertEvent], us ++ vs, execXfer_ok ctx hp hl hd, hrun, rfl, hl, htx, rfl,
    lineOf_csDeassert, rfl, rfl, ?trace, ?length, ?bus, ?work, fun i hi => ?written, fun i hi hw => ?sentAgain,
    fun i hi => ?stored, hmoved.frame⟩
  case trace => exact (List.append_assoc ..).symm
  case length => rw [List.length_append, hmoved.writes, hmoved.reads]; rfl
  case bus =>
    rw [exchanges_append, exchanges_append, hmoved.trips.bus hc]
    exact List.append_nil _
  case work =>
    rw [workAccesses_append, workAccesses_append, hmoved.trips.work]
    rfl
  case written =>
    obtain ⟨y, hy, hsent⟩ := hmoved.write hi
    rw [hy, Option.map_some, hsent]
    rfl
  case sentAgain =>
    obtain ⟨y, hy, hsent, -⟩ := hmoved.read hi
    exact (congrArg _ hy).trans (congrArg some (hsent hw))
  case stored =>
    obtain ⟨y, hy, -, hstored⟩ := hmoved.read hi
    exact (congrArg _ hy).trans (congrArg some hstored)

/-- Settles O48: the run is `reaches_xferEnd`, and behind the double each answer is the byte sent. -/
theorem echoDoubleReturnsOutboundBytes : Obligations.EchoDoubleReturnsOutboundBytes := by
  intro s w r wb rb ctx hp hl hh hi hrx hwf
  have hd := wf_xfer_iff.mp hwf
  have hnot : ¬ s.iface = .core := by simp [hi]
  obtain ⟨us, vs, x, _, mem, tr, ⟨n, hrun⟩, hmoved⟩ := reaches_xferEnd (s := xferStarted s w r wb rb ctx) rfl hd
    ⟨hh, hrx, (absurd · hnot), (absurd · hnot), (absurd · hnot)⟩
  refine ⟨_, n, _, execXfer_ok ctx hp hl hd, hrun, rfl, rfl, rfl, fun j hj hw => ?_, hmoved.frame⟩
  obtain ⟨y, hy, hsent, hstored⟩ := hmoved.read hj
  calc memRead mem (rb + j) = y.2 := hstored.symm
    _ = y.1 := hmoved.trips.echo hi y (List.mem_of_getElem? hy)
    _ = memRead s.mem (wb + j) := hsent hw

end Sys2Proof.Machine
end

section
/-! PROOFS. Errors and refusals (60_exceptions.md, R174, R176, R181). The guards of a command are tested in the order
micro-state, lifecycle, operands: one lemma says that a busy block refuses every command, and one lemma per command names
the refusal that its lifecycle guard gives at `IDLE`. Raising an error is one update of the state, `raiseError_eq`. -/

namespace Sys2Proof.Machine

/-! ### Commands out of place (R181) -/

/-- Away from `IDLE` the block is busy, and no command is accepted whatever `LC` and the operands are. -/
theorem exec_command_busy {s : State} {i : Instr} (hi : isAccess i = false) (hpc : s.pc ≠ .idle) :
    exec i s = .refused .busy := by
  cases i with
  | init => exact if_pos hpc
  | xfer => exact if_pos hpc
  | shutdown => exact if_pos hpc
  | _ => cases hi

/-- R115: `INIT` is the first command or none. -/
theorem execInit_notFirst {s : State} (sel : Option String) (hpc : s.pc = .idle) (hl : s.lc ≠ .uninit) :
    execInit sel s = .refused .initNotFirst := by
  rw [execInit, if_neg (not_not.mpr hpc), if_pos hl]

/-- R140: outside `READY` there is no transaction, whatever its buffers are. -/
theorem execXfer_notReady {s : State} (w r wb rb ctx : Nat) (hpc : s.pc = .idle) (hl : s.lc ≠ .ready) :
    execXfer w r wb rb ctx s = .refused .notReady := by
  rw [execXfer, if_neg (not_not.mpr hpc), if_pos hl]

/-- R131: after a `SHUTDOWN` there is no second one. -/
theorem execShutdown_second {s : State} (ctx : Nat) (hpc : s.pc = .idle) (hl : s.lc = .closed) :
    execShutdown ctx s = .refused .secondShutdown := by
  rw [execShutdown, if_neg (not_not.mpr hpc), if_pos hl]

/-- Settles O23: one refusal per guard, and a reserved code is the decoder's to reject. -/
theorem misplacedCommandsRefused : Obligations.MisplacedCommandsRefused :=
  ⟨fun _ _ _ _ _ _ _ hpc => ⟨exec_command_busy rfl hpc, exec_command_busy rfl hpc, exec_command_busy rfl hpc⟩,
    fun _ => execXfer_notReady, fun _ => execInit_notFirst, fun _ => execShutdown_second,
    fun _ _ args _ hpc hr hi hx hs => seqStep_rejected hpc hr (decode_reservedOp args hi hx hs)⟩

/-! ### Raising an error (R174, R176) -/

/-- R174: the whole state after an error is raised. -/
theorem raiseError_eq (s : State) (e : InitError) :
    raiseError s e = { s with
      pc := .idle, lc := .failed, regST := .error e, held := {}
      trace := s.trace ++ [.diag .error (diagClassOf e)] ++ [.done .init (some (.error e))] } := rfl

/-- Settles O37: `raiseError_eq`, the class of the diagnostic read off the error. -/
theorem raiseChangesStatusOnly : Obligations.RaiseChangesStatusOnly := by
  intro s e
  rw [raiseError_eq]
  cases e with
  | configuration => rfl
  | mapping => rfl
  | registration => rfl

/-- Settles O38: an unrecognised selector raises before any reply of the host is looked at, and the error's events are
all that the trace gains. -/
theorem firstCauseIsReported : Obligations.FirstCauseIsReported :=
  fun _ _ _ _ hpc hf => ⟨_, seqStep_iResolve_unclassified hpc hf, raiseError_regST .., raiseError_pc ..,
    raiseError_trace ..⟩

end Sys2Proof.Machine
end
